-- ==== Sys2Proof/Word.lean ====
section
/-! DEFINITION. The words of the FCB: bytes, 16-bit and 32-bit registers (00_scope.md R9, 10_state.md R21). -/

namespace Sys2Proof

/-- The byte is 8 bits (00_scope.md R9). -/
abbrev Byte := BitVec 8

/-- The width of most scalar registers and of a Modbus register (10_state.md R21, R36). -/
abbrev Half := BitVec 16

/-- The width of `RDATA`, of `E_SER` and of the 32-bit operands (10_state.md R21, R23; 30_encoding.md R91). -/
abbrev Word := BitVec 32

end Sys2Proof
end

