-- ==== Sys2Proof/Config.lean ====
section
/-! DEFINITION. The parameters of the block (00_scope.md R8): the fixed ones as constants, the OPEN ones and the data
field's pattern as the fields of `Config`, which the machine state carries and no step changes (log entry 1). -/

namespace Sys2Proof

/-- `START_DELIM` (R8). -/
abbrev startDelim : Byte := 0xA5

/-- `END_DELIM` (R8). -/
abbrev endDelim : Byte := 0x15

/-- `HDR_LEN` (R8): bytes before the data field. -/
abbrev hdrLen : Nat := 11

/-- `TAIL_LEN` (R8): the checksum byte and the end delimiter. -/
abbrev tailLen : Nat := 2

/-- `REQ_LEN` (R8): bytes of a Modbus request. -/
abbrev reqLen : Nat := 8

/-- `FC_READ` (R8): the read function code. -/
abbrev fcRead : Half := 0x0103

/-- `CTRL_RESET` (R8): reset value of the control code the assembler emits. -/
abbrev ctrlReset : Half := 0x1045

/-- `CRC_INIT` (R8). PRESUMED: the spec takes it from general knowledge (its G1; log entry 9). -/
abbrev crcInitValue : Half := 0xFFFF

/-- `CRC_POLY_R` (R8). PRESUMED: the spec takes it from general knowledge (its G1; log entry 9). -/
abbrev crcPolyR : Half := 0xA001

/-- The parameters a model takes as an argument or carries as a field (R8; 92_eei_decisions.md D5, D15, D21). -/
structure Config where
  /-- `CATALOG_REGS`, OPEN, legal 1 to 127. -/
  catalogRegs : Nat
  /-- `IBUF_MAX`, OPEN, legal 36 to 65535. -/
  ibufMax : Nat
  /-- `DATA_PATTERN`; its length is `DATA_LEN`. -/
  dataPattern : List Byte
deriving DecidableEq, Repr

/-- `DATA_LEN` (R8): the pattern has as many bytes as the data field (D5). -/
abbrev Config.dataLen (c : Config) : Nat := c.dataPattern.length

/-- `LEN_BIAS` (R8): it equals `DATA_LEN`. -/
abbrev Config.lenBias (c : Config) : Nat := c.dataLen

/-- The offset of the payload: `HDR_LEN + DATA_LEN` (20_memory.md R66). -/
abbrev Config.payloadOffset (c : Config) : Nat := hdrLen + c.dataLen

/-- `OBUF_LEN` (R8): `HDR_LEN + DATA_LEN + REQ_LEN + TAIL_LEN`. -/
abbrev Config.obufLen (c : Config) : Nat := hdrLen + c.dataLen + reqLen + tailLen

/-- `02` then fourteen `00` (R8). -/
abbrev defaultPattern : List Byte := [2, 0, 0, 0, 0, 0, 0, 0, 0, 0, 0, 0, 0, 0, 0]

/-- The values the spec allows: the legal ranges of the OPEN parameters, and the one data pattern it fixes (R8). -/
abbrev Config.legal (c : Config) : Prop :=
  1 ≤ c.catalogRegs ∧ c.catalogRegs ≤ 127 ∧ 36 ≤ c.ibufMax ∧ c.ibufMax ≤ 65535 ∧ c.dataPattern = defaultPattern

/-- The recommended values of R8. -/
def Config.recommended : Config := { catalogRegs := 30, ibufMax := 512, dataPattern := defaultPattern }

end Sys2Proof
end

