-- ==== Sys2Proof/Machine/Bytes.lean ====
section
/-! DEFINITION. Byte order and extension helpers (00_scope.md R11, R12; 20_memory.md R61), used by the decoder, the
encoder and the parsers. -/

namespace Sys2Proof

/-- `be16(v)` of R11: the more significant byte first. -/
def be16 (v : Half) : List Byte := [v.extractLsb' 8 8, v.extractLsb' 0 8]

/-- `le16(v)` of R11: the less significant byte first. -/
def le16 (v : Half) : List Byte := [v.extractLsb' 0 8, v.extractLsb' 8 8]

/-- `le32(v)` of R11: the least significant byte first. -/
def le32 (v : Word) : List Byte := [v.extractLsb' 0 8, v.extractLsb' 8 8, v.extractLsb' 16 8, v.extractLsb' 24 8]

/-- The four bytes of a 32-bit command operand, the most significant first (30_encoding.md R91, R92). -/
def be32 (v : Word) : List Byte := [v.extractLsb' 24 8, v.extractLsb' 16 8, v.extractLsb' 8 8, v.extractLsb' 0 8]

/-- `s[i]` of R10, where the caller has checked that the string is long enough. -/
def byteAt (s : List Byte) (i : Nat) : Byte := s.getD i 0

/-- `BE16(s)` of R11. -/
def ofBE16 (s : List Byte) : Half := byteAt s 0 ++ byteAt s 1

/-- `LE16(s)` of R11. -/
def ofLE16 (s : List Byte) : Half := byteAt s 1 ++ byteAt s 0

/-- `LE32(s)` of R11. -/
def ofLE32 (s : List Byte) : Word := byteAt s 3 ++ byteAt s 2 ++ byteAt s 1 ++ byteAt s 0

/-- A 32-bit command operand from its bytes, the most significant first (30_encoding.md R92). -/
def ofBE32 (s : List Byte) : Word := byteAt s 0 ++ byteAt s 1 ++ byteAt s 2 ++ byteAt s 3

/-- `zext_32` of R12. -/
def zext32 {w : Nat} (v : BitVec w) : Word := v.setWidth 32

/-- `sext_32` of R12. -/
def sext32 {w : Nat} (v : BitVec w) : Word := v.signExtend 32

/-- `s[i..i+n-1]` of R10. -/
def slice (s : List Byte) (i n : Nat) : List Byte := (s.drop i).take n

/-- The bytes of a list of 16-bit registers, each big-endian (20_memory.md R61). -/
def tableBytes : List Half → List Byte
  | [] => []
  | r :: rest => be16 r ++ tableBytes rest

/-- The first `n` registers of a register table, each big-endian (30_encoding.md R99). -/
def tableOf : Nat → List Byte → List Half
  | 0, _ => []
  | n + 1, s => ofBE16 s :: tableOf n (s.drop 2)

end Sys2Proof
end

