-- ==== Sys2Proof/Syntax.lean ====
section
/-! DEFINITION. The instructions: one constructor per row of spec/opcode_table.json (30_encoding.md R93, R97 to R99),
and what a host can present to the FCB (30_encoding.md R90, 70_reset_and_hazards.md R260, R268). -/

namespace Sys2Proof

/-- The 25 commands of R93, then the five wire-format rows of the opcode table. The operands of a wire row are the
fields of its message, at any value; the message as a whole is handed to the FCB's parser (log entry 7). -/
inductive Instr where
  /-- `NOP` (R150). -/
  | nop
  /-- `RESET` (R151). -/
  | reset
  /-- `CLRERR` (R152). -/
  | clrerr
  /-- `RD a`, `a` a register number (R153). -/
  | rd (a : Byte)
  /-- `WR r, v` (R154). -/
  | wr (r : Byte) (v : Word)
  /-- `IB.CLR` (R155). -/
  | ibClr
  /-- `IB.LOAD d`; the count `n` of the encoding is the number of data bytes (R156, R101). -/
  | ibLoad (data : List Byte)
  /-- `RDI a`, `a` an `IBUF` index (R157). -/
  | rdi (a : Half)
  /-- `RDO a`, `a` an `OBUF` index (R158). -/
  | rdo (a : Half)
  /-- `RDP a`, `a` a `PBUF` index (R159). -/
  | rdp (a : Byte)
  /-- `RDD a`, `a` an `E_DATA` index (R160). -/
  | rdd (a : Byte)
  /-- `CRC.INIT` (R133). -/
  | crcInit
  /-- `CRC.UPD a` (R134). -/
  | crcUpd (a : Byte)
  /-- `CRC.BUF a, b`: offset and length (R135). -/
  | crcBuf (a b : Half)
  /-- `SUM.INIT` (R142). -/
  | sumInit
  /-- `SUM.UPD a` (R143). -/
  | sumUpd (a : Byte)
  /-- `SUM.BUF a, b`: offset and length (R144). -/
  | sumBuf (a b : Half)
  /-- `EP.RUN` (R171). -/
  | epRun
  /-- `ENV.BUILD a`, `a` the device serial (R184). -/
  | envBuild (a : Word)
  /-- `MB.REQ a, b, c`: function code, start register, count (R190). -/
  | mbReq (a b c : Half)
  /-- `MP.CMD a`, `a` the span selector (R193). -/
  | mpCmd (a : Byte)
  /-- `MP.RSP a`, `a` the span selector (R194). -/
  | mpRsp (a : Byte)
  /-- `FX.U16 a`, `a` an `M_REG` index (R205). -/
  | fxU16 (a : Byte)
  /-- `FX.S16 a`, `a` an `M_REG` index (R206). -/
  | fxS16 (a : Byte)
  /-- `FX.D32 a`, `a` the `M_REG` index of the low word (R207). -/
  | fxD32 (a : Byte)
  /-- `wire-envelope-frame` (R97): the fields after the start delimiter 0xA5, in wire order. -/
  | wireEnvelopeFrame (length control counter : Half) (serial : Word) (data payload : List Byte) (checksum fin : Byte)
  /-- `wire-modbus-request` (R98). -/
  | wireModbusRequest (functionCode startRegister count crc : Half)
  /-- `wire-modbus-response-ack` (R99, R100): any function code but `FC_READ`. -/
  | wireModbusResponseAck (functionCode crc : Half)
  /-- `wire-modbus-response-empty-read` (R99): function code `FC_READ`, length byte 0. -/
  | wireModbusResponseEmptyRead (crc : Half)
  /-- `wire-modbus-response-read` (R99): function code `FC_READ`, length byte not 0, the register table. -/
  | wireModbusResponseRead (length : Byte) (table : List Half) (crc : Half)
deriving DecidableEq, Repr

/-- What a message presented by the host is meant as; the host knows which (R97 to R99). -/
inductive MessageKind where
  | frame
  | request
  | response
deriving DecidableEq, Repr

/-- What the host can do to the FCB at a command boundary (R268): send a command, drive the reset input (R260), or run
its parsing procedure on a message (log entry 7). -/
inductive HostInput where
  /-- One whole command byte string on the command port (R90). -/
  | command (bytes : List Byte)
  /-- A message the host loads and has parsed (R102, R263). -/
  | message (kind : MessageKind) (bytes : List Byte)
  /-- The hardware reset input (R103, R260). -/
  | resetInput
deriving DecidableEq, Repr

end Sys2Proof
end

