-- ==== Sys2Proof/Machine/State.lean ====
section
/-! DEFINITION. The state of the FCB: the 35 scalar registers, the read latch and the five arrays (10_state.md R20 to
R36), and the model's own fields for the parameters and the ports. Plain data. -/

namespace Sys2Proof.Machine

/-- An array of `w`-bit elements: (index, element) pairs, indexes strictly rising, no element equal to what an unlisted
index holds (`unlisted`). For `w = 8` it is a list of `Host.Cell`. -/
abbrev Mem (w : Nat) := List (Nat × BitVec w)

/-- What an index that is not listed holds: 0, which is the reset value of `PBUF`, `E_DATA` and `M_REG` (10_state.md
R36). DESIGN CHOICE for `IBUF` and `OBUF`, whose unwritten bytes are unspecified and cannot be read (R261, R262; log
entry 5): unsafe. -/
abbrev unlisted (w : Nat) : BitVec w := 0

/-- The seven errors of 60_exceptions.md R221. -/
inductive ErrorName where
  | truncatedInput
  | outOfRange
  | checksumMismatch
  | malformedSchema
  | badDelimiter
  | illegalCommand
  | sequenceError
deriving DecidableEq, Repr

/-- The outcome of a command (42_system_and_buffers.md R161, 60_exceptions.md R220). -/
inductive CommandOutcome where
  | ok
  /-- It completed and flagged `ChecksumMismatch`. -/
  | okFlagged
  | error (name : ErrorName)
deriving DecidableEq, Repr

/-- Why the model stops with a fault. Nothing in the FCB does (93_implementation_defined.md: "Nothing in the FCB is
`stuck`"); the one fault stands for what R14 leaves undefined, and no state that a run reaches raises it. -/
inductive Fault where
  /-- Raised by `memRead` and `regRead` (`MP.CMD`, `MP.RSP`, `FX.U16`, `FX.S16`, `FX.D32` in a state whose spans or
  counts do not fit its buffers): an element outside the buffer's length, for which 00_scope.md R14 defines no read.
  Safe (log entry 6). -/
  | undefinedRead
deriving DecidableEq, Repr

/-- Why the model gives no meaning. -/
inductive Refusal where
  /-- Raised by an arm of `exec` for an instruction that has no meaning yet; no arm does. Safe. -/
  | notModelled (mnemonic : String)
deriving DecidableEq, Repr

/-- The state of the FCB (R20), with the model's own `cfg`, `pending` and `outcome`. -/
@[ext]
structure State where
  /-- The model's own: the parameters of 00_scope.md R8; no step changes it (log entry 1). -/
  cfg : Config
  /-- `STATUS`, number 0x00: the eight flags of R25. -/
  status : Byte
  /-- `ERR`, number 0x01 (R26). -/
  err : Byte
  /-- `ERR_ENT`, number 0x02 (R26). -/
  errEnt : Half
  /-- `ERR_POS`, number 0x03 (R26). -/
  errPos : Half
  /-- `CRC`, number 0x04 (R27). -/
  crc : Half
  /-- `SUM`, number 0x05 (R28). -/
  sum : Byte
  /-- `CNT`, number 0x06 (R29). -/
  cnt : Half
  /-- `CTRL`, number 0x07 (R30). -/
  ctrl : Half
  /-- `ILEN`, number 0x08 (R31). -/
  ilen : Half
  /-- `OLEN`, number 0x09 (R31). -/
  olen : Half
  /-- `E_STATE`, number 0x0A (R32). -/
  eState : Byte
  /-- `M_STATE`, number 0x0B (R33). -/
  mState : Byte
  /-- `E_START`, number 0x10 (R34). -/
  eStart : Byte
  /-- `E_LEN`, number 0x11. -/
  eLen : Half
  /-- `E_CTRL`, number 0x12. -/
  eCtrl : Half
  /-- `E_CNT`, number 0x13. -/
  eCnt : Half
  /-- `E_SER`, number 0x14. -/
  eSer : Word
  /-- `E_POFF`, number 0x15. -/
  ePoff : Half
  /-- `E_PLEN`, number 0x16. -/
  ePlen : Half
  /-- `E_CHK`, number 0x17. -/
  eChk : Byte
  /-- `E_END`, number 0x18. -/
  eEnd : Byte
  /-- `E_TOFF`, number 0x19. -/
  eToff : Half
  /-- `E_TLEN`, number 0x1A. -/
  eTlen : Half
  /-- `E_NENT`, number 0x1B. -/
  eNent : Byte
  /-- `M_FC`, number 0x20 (R35). -/
  mFc : Half
  /-- `M_LEN`, number 0x21. -/
  mLen : Byte
  /-- `M_START`, number 0x22. -/
  mStart : Half
  /-- `M_COUNT`, number 0x23. -/
  mCount : Half
  /-- `M_CRC`, number 0x24. -/
  mCrc : Half
  /-- `M_NREG`, number 0x25. -/
  mNreg : Byte
  /-- `M_TOFF`, number 0x26. -/
  mToff : Half
  /-- `M_TLEN`, number 0x27. -/
  mTlen : Half
  /-- `M_NENT`, number 0x28. -/
  mNent : Byte
  /-- `M_BASE`, number 0x29. -/
  mBase : Half
  /-- `M_SLEN`, number 0x2A. -/
  mSlen : Half
  /-- The read latch `RDATA` (R23). -/
  rdata : Word
  /-- `IBUF` (R36). -/
  ibuf : Mem 8
  /-- `PBUF` (R36). -/
  pbuf : Mem 8
  /-- `OBUF` (R36). -/
  obuf : Mem 8
  /-- `E_DATA` (R36). -/
  eData : Mem 8
  /-- `M_REG` (R36). -/
  mReg : Mem 16
  /-- The model's own: what the host has queued, the next to be served first (R90, R268; log entry 3). -/
  pending : List HostInput
  /-- The model's own: the outcome port, nothing before a command has completed since reset (R103, R161; log entry 4). -/
  outcome : Option CommandOutcome
deriving DecidableEq, Repr

/-- The state after reset: 10_state.md R21, R23, R36; 70_reset_and_hazards.md R261. The model's own fields: the
recommended parameters (DESIGN CHOICE, log entry 1), nothing queued (log entry 3), no outcome (log entry 4). -/
def State.reset : State where
  cfg := Config.recommended
  status := 0x00
  err := 0
  errEnt := 0
  errPos := 0
  crc := crcInitValue
  sum := 0x00
  cnt := 0x0000
  ctrl := ctrlReset
  ilen := 0
  olen := 0
  eState := 0
  mState := 0
  eStart := 0
  eLen := 0
  eCtrl := 0
  eCnt := 0
  eSer := 0
  ePoff := 0
  ePlen := 0
  eChk := 0
  eEnd := 0
  eToff := 0
  eTlen := 0
  eNent := 0
  mFc := 0
  mLen := 0
  mStart := 0
  mCount := 0
  mCrc := 0
  mNreg := 0
  mToff := 0
  mTlen := 0
  mNent := 0
  mBase := 0
  mSlen := 0
  rdata := 0x00000000
  ibuf := []
  pbuf := []
  obuf := []
  eData := []
  mReg := []
  pending := []
  outcome := none

end Sys2Proof.Machine
end

