-- ==== Sys2Proof/Machine/Flags.lean ====
section
/-! DEFINITION. The flags of `STATUS` (10_state.md R25), the codes of the two parser state machines (R32, R33) and of
the errors (60_exceptions.md R221). -/

namespace Sys2Proof.Machine

/-- The eight flags of `STATUS` (R25). -/
inductive Flag where
  | eValid
  | eHaspl
  | chkBad
  | mValid
  | crcBad
  | pbValid
  | obValid
  | mRsp
deriving DecidableEq, Repr

/-- The flag's bit of `STATUS` (R25). -/
def Flag.bit : Flag → Nat
  | .eValid => 0
  | .eHaspl => 1
  | .chkBad => 2
  | .mValid => 3
  | .crcBad => 4
  | .pbValid => 5
  | .obValid => 6
  | .mRsp => 7

/-- `STATUS.<flag>` (00_scope.md R13). -/
def State.flag (s : State) (f : Flag) : Bool := s.status.getLsbD f.bit

/-- The word that has only the flag's bit. -/
def Flag.mask (f : Flag) : Byte := BitVec.twoPow 8 f.bit

/-- `STATUS.<flag> <- b`, the other seven flags kept. -/
def State.setFlag (s : State) (f : Flag) (b : Bool) : State :=
  { s with status := if b then s.status ||| f.mask else s.status &&& ~~~f.mask }

/-- The states of the envelope FSM (R32). -/
inductive EnvelopeState where
  | idle
  | expectStart
  | expectLength
  | expectControl
  | expectCounter
  | expectSerial
  | expectData
  | expectPayload
  | expectChecksum
  | expectEnd
  | done
deriving DecidableEq, Repr

/-- The value `E_STATE` holds (R32). -/
def EnvelopeState.code : EnvelopeState → Byte
  | .idle => 0
  | .expectStart => 1
  | .expectLength => 2
  | .expectControl => 3
  | .expectCounter => 4
  | .expectSerial => 5
  | .expectData => 6
  | .expectPayload => 7
  | .expectChecksum => 8
  | .expectEnd => 9
  | .done => 10

/-- The states of the Modbus FSM (R33). -/
inductive ModbusState where
  | idle
  | expectFunctionCode
  | expectLength
  | expectPayload
  | expectCrc
  | expectStart
  | expectCount
  | done
deriving DecidableEq, Repr

/-- The value `M_STATE` holds (R33). -/
def ModbusState.code : ModbusState → Byte
  | .idle => 0
  | .expectFunctionCode => 1
  | .expectLength => 2
  | .expectPayload => 3
  | .expectCrc => 4
  | .expectStart => 5
  | .expectCount => 6
  | .done => 7

/-- The code `ERR` holds (R221); 0 is no error. -/
def ErrorName.code : ErrorName → Byte
  | .truncatedInput => 1
  | .outOfRange => 2
  | .checksumMismatch => 3
  | .malformedSchema => 4
  | .badDelimiter => 5
  | .illegalCommand => 6
  | .sequenceError => 7

end Sys2Proof.Machine
end

