-- ==== Sys2Proof/Machine/Ops.lean ====
section
/-! DEFINITION. The named operations: the arrays (20_memory.md R60), the run of one command, raising, flagging and
clearing an error (60_exceptions.md R226, R233, R235), and reset (70_reset_and_hazards.md R261). -/

namespace Sys2Proof.Machine

/-- The element at index `a`. -/
def Mem.read {w : Nat} : Mem w → Nat → BitVec w
  | [], _ => unlisted w
  | (k, v) :: rest, a => if k = a then v else Mem.read rest a

/-- The element put in front of a list of higher indexes, left out where it equals what an unlisted index holds. -/
def Mem.put {w : Nat} (a : Nat) (v : BitVec w) (m : Mem w) : Mem w := if v = unlisted w then m else (a, v) :: m

/-- The array with `v` stored at index `a`; it keeps the canonical form. -/
def Mem.write {w : Nat} : Mem w → Nat → BitVec w → Mem w
  | [], a, v => Mem.put a v []
  | (k, u) :: rest, a, v =>
    if a < k then Mem.put a v ((k, u) :: rest)
    else if a = k then Mem.put a v rest
    else (k, u) :: Mem.write rest a v

/-- The canonical form: indexes strictly rising, no element equal to what an unlisted index holds. -/
def Mem.wf {w : Nat} : Mem w → Bool
  | [] => true
  | (k, v) :: rest => v != unlisted w && rest.all (fun c => decide (k < c.1)) && Mem.wf rest

/-- Every listed index is below `n`. -/
def Mem.below {w : Nat} (n : Nat) (m : Mem w) : Bool := m.all (fun c => decide (c.1 < n))

/-- The `n` elements from index `off` on, in ascending order. -/
def Mem.readRange {w : Nat} (m : Mem w) (off : Nat) : Nat → List (BitVec w)
  | 0 => []
  | n + 1 => Mem.read m off :: Mem.readRange m (off + 1) n

/-- The elements stored from index `off` on, the first at the lowest index. -/
def Mem.writeRange {w : Nat} (m : Mem w) (off : Nat) : List (BitVec w) → Mem w
  | [] => m
  | v :: rest => Mem.writeRange (Mem.write m off v) (off + 1) rest

/-- A command part of the way through: it goes on in a state, or it has ended and its outcome is recorded (00_scope.md
R15), or the model stops. -/
inductive Run where
  | go (s : State)
  | ended (s : State)
  | fault (r : Fault)
deriving Repr

/-- The next part of a command, run where the part before it went on. -/
def Run.andThen (r : Run) (f : State → Run) : Run :=
  match r with
  | .go s => f s
  | .ended s => .ended s
  | .fault e => .fault e

/-- The outcome port shows `o` (30_encoding.md R103). -/
def State.withOutcome (s : State) (o : CommandOutcome) : State := { s with outcome := some o }

/-- The end of a command (42_system_and_buffers.md R161): a command that ran to its end is `ok`. -/
def Run.finish (r : Run) : Host.Outcome State Fault Refusal :=
  match r with
  | .go s => .next (s.withOutcome .ok)
  | .ended s => .next s
  | .fault e => .fault e

/-- A command of one write: it runs to its end. -/
def completed (s : State) : Host.Outcome State Fault Refusal := Run.finish (.go s)

/-- A command run after another one, in the state the other left. -/
def afterNext (o : Host.Outcome State Fault Refusal) (f : State → Host.Outcome State Fault Refusal) :
    Host.Outcome State Fault Refusal :=
  match o with
  | .next s => f s
  | .fault e => .fault e
  | .refused e => .refused e

/-- The error record (R226): the latest error wins. -/
def State.recordError (s : State) (e : ErrorName) (pos ent : Nat) : State :=
  { s with err := e.code, errPos := BitVec.ofNat 16 pos, errEnt := BitVec.ofNat 16 ent }

/-- Taking an error, the FCB's trap entry: `raise E(pos, ent)` (R15, R226, R233). It ends the command and leaves every
write made before it; nothing else changes. -/
def raise (e : ErrorName) (pos ent : Nat) (s : State) : Run :=
  .ended ((s.recordError e pos ent).withOutcome (.error e))

/-- `flag ChecksumMismatch(pos, ent)` (R15, R224, R226), which the rules do last of all (R181, R193, R201). -/
def flagMismatch (pos ent : Nat) (s : State) : Run :=
  .ended ((s.recordError .checksumMismatch pos ent).withOutcome .okFlagged)

/-- The return from an error, the FCB's trap return (R235): the record is zeroed and nothing else. -/
def State.clearError (s : State) : State := { s with err := 0, errPos := 0, errEnt := 0 }

/-- Reset (R151, R260, R261): every register and array at its reset value. The parameters are no state, and what the
host has queued is the host's; both stay (log entry 14). -/
def State.resetAll (s : State) : State := { State.reset with cfg := s.cfg, pending := s.pending }

/-- What the next instruction meets: the host's first queued input taken off the queue. -/
def State.withPending (s : State) (queue : List HostInput) : State := { s with pending := queue }

end Sys2Proof.Machine
end

