-- ==== Sys2Proof/Machine/Operands.lean ====
section
/-! DEFINITION. What commands name and read: the numbered registers (10_state.md R21), the buffers (00_scope.md R14),
the read primitives of the two parsers (43_envelope.md R182, 44_modbus.md R195) and the span a parser is given (R191). -/

namespace Sys2Proof.Machine

/-- The scalar registers by their numbers, zero-extended to the width of `RDATA` (R21, R153). -/
def State.scalarRegisters (s : State) : List (Nat × Word) :=
  [ (0x00, zext32 s.status), (0x01, zext32 s.err), (0x02, zext32 s.errEnt), (0x03, zext32 s.errPos),
    (0x04, zext32 s.crc), (0x05, zext32 s.sum), (0x06, zext32 s.cnt), (0x07, zext32 s.ctrl),
    (0x08, zext32 s.ilen), (0x09, zext32 s.olen), (0x0A, zext32 s.eState), (0x0B, zext32 s.mState),
    (0x10, zext32 s.eStart), (0x11, zext32 s.eLen), (0x12, zext32 s.eCtrl), (0x13, zext32 s.eCnt),
    (0x14, zext32 s.eSer), (0x15, zext32 s.ePoff), (0x16, zext32 s.ePlen), (0x17, zext32 s.eChk),
    (0x18, zext32 s.eEnd), (0x19, zext32 s.eToff), (0x1A, zext32 s.eTlen), (0x1B, zext32 s.eNent),
    (0x20, zext32 s.mFc), (0x21, zext32 s.mLen), (0x22, zext32 s.mStart), (0x23, zext32 s.mCount),
    (0x24, zext32 s.mCrc), (0x25, zext32 s.mNreg), (0x26, zext32 s.mToff), (0x27, zext32 s.mTlen),
    (0x28, zext32 s.mNent), (0x29, zext32 s.mBase), (0x2A, zext32 s.mSlen) ]

/-- `x[a]`, none for an unimplemented number (R13, R21, R22). -/
def State.scalar (s : State) (a : Byte) : Option Word := s.scalarRegisters.lookup a.toNat

/-- The byte-addressed buffers (20_memory.md R60). -/
inductive Buffer where
  | ibuf
  | obuf
  | pbuf
  | eData
deriving DecidableEq, Repr

/-- The buffer's elements. -/
def State.bufferOf (s : State) : Buffer → Mem 8
  | .ibuf => s.ibuf
  | .obuf => s.obuf
  | .pbuf => s.pbuf
  | .eData => s.eData

/-- `length(B)` of R14. -/
def State.bufferLength (s : State) : Buffer → Nat
  | .ibuf => s.ilen.toNat
  | .obuf => s.olen.toNat
  | .pbuf => if s.flag .pbValid then reqLen else 0
  | .eData => s.cfg.dataLen

/-- `MemRead(B:off, n)` (R14), handed to what follows. Beyond the buffer's length R14 defines no read: the model stops
(log entry 6). -/
def memRead (s : State) (b : Buffer) (off n : Nat) (next : List Byte → Run) : Run :=
  if off + n ≤ s.bufferLength b then next (Mem.readRange (s.bufferOf b) off n) else .fault .undefinedRead

/-- `M_REG[i]` (R36, R60), handed to what follows. `M_REG` has `CATALOG_REGS` elements; there is no other to read (log
entry 6). -/
def regRead (s : State) (i : Nat) (next : Half → Run) : Run :=
  if i < s.cfg.catalogRegs then next (Mem.read s.mReg i) else .fault .undefinedRead

/-- The read primitive of the envelope parser (R182). -/
def take (s : State) (pos n ent : Nat) (next : List Byte → Run) : Run :=
  if pos + n > s.ilen.toNat then raise .truncatedInput pos ent s else memRead s .ibuf pos n next

/-- The read primitive of the Modbus parser (R195); `e` is the error it raises. -/
def mtake (s : State) (pos n ent : Nat) (e : ErrorName) (next : List Byte → Run) : Run :=
  if pos + n > s.mSlen.toNat then raise e pos ent s else memRead s .ibuf (s.mBase.toNat + pos) n next

/-- A read through `RDATA` of one byte of a buffer, out of range from `len` on (R67, R157, R158, R159). -/
def readByteOut (s : State) (b : Buffer) (a len : Nat) : Run :=
  if a ≥ len then raise .truncatedInput a 0 s
  else memRead s b a 1 fun bytes => .go { s with rdata := zext32 (byteAt bytes 0) }

/-- The clearing part of R191 and the span that the Modbus parser is given. -/
def State.openSpan (s : State) (isResponse : Bool) (base slen : Half) : State :=
  let t := { s with
    mFc := 0, mLen := 0, mStart := 0, mCount := 0, mCrc := 0, mNreg := 0, mToff := 0, mTlen := 0, mNent := 0,
    mReg := [], mBase := base, mSlen := slen }
  ((t.setFlag .mValid false).setFlag .crcBad false).setFlag .mRsp isResponse

/-- Span selection (R191). A selector above 1 is an illegal command (R94), which the decoder already refuses; `op` is the
opcode that is then recorded (log entry 12). -/
def selectSpan (op src : Byte) (isResponse : Bool) (s : State) : Run :=
  if src = 0 then
    if s.flag .eHaspl then .go (s.openSpan isResponse s.ePoff s.ePlen) else raise .sequenceError 0 0 s
  else if src = 1 then .go (s.openSpan isResponse 0 s.ilen)
  else raise .illegalCommand 0 op.toNat s

end Sys2Proof.Machine
end

