-- ==== Sys2Proof/Machine/System.lean ====
section
/-! DEFINITION. The system and register-access commands (42_system_and_buffers.md R150 to R154). -/

namespace Sys2Proof.Machine

/-- `NOP` (R150). -/
def execNop (s : State) : Host.Outcome State Fault Refusal := completed s

/-- `RESET` (R151). -/
def execReset (s : State) : Host.Outcome State Fault Refusal := completed s.resetAll

/-- `CLRERR` (R152). -/
def execClrerr (s : State) : Host.Outcome State Fault Refusal := completed s.clearError

/-- `RD a` (R153). -/
def execRd (a : Byte) (s : State) : Host.Outcome State Fault Refusal :=
  match s.scalar a with
  | none => (raise .illegalCommand 0 0x03 s).finish
  | some v => completed { s with rdata := v }

/-- `WR r, v` (R154): the register check comes before the range check (R232). -/
def execWr (r : Byte) (v : Word) (s : State) : Host.Outcome State Fault Refusal :=
  if r ≠ 0x06 ∧ r ≠ 0x07 then (raise .illegalCommand 0 0x04 s).finish
  else if v.toNat > 0xFFFF then (raise .outOfRange 0 r.toNat s).finish
  else if r = 0x06 then completed { s with cnt := v.extractLsb' 0 16 }
  else completed { s with ctrl := v.extractLsb' 0 16 }

end Sys2Proof.Machine
end

