-- ==== Sys2Proof/WellFormed.lean ====
section
/-! DEFINITION. Which instructions an encoding can carry: the operand ranges of 30_encoding.md R91, R94, R97 to R99. -/

namespace Sys2Proof

/-- The span selector of `MP.CMD` and `MP.RSP` is 0 or 1 (R94). -/
abbrev sourceOk (a : Byte) : Bool := a.toNat ≤ 1

/-- The count byte of `IB.LOAD` reaches 255 (R91). -/
abbrev loadOk (data : List Byte) : Bool := data.length ≤ 255

/-- A frame's data field is 15 bytes (R97; 90_conflicts.md C1). -/
abbrev frameDataOk (data : List Byte) : Bool := data.length = defaultPattern.length

/-- The acknowledgement shape is selected by a function code other than `FC_READ` (R99, R100). -/
abbrev ackCodeOk (functionCode : Half) : Bool := functionCode != fcRead

/-- The read shape has a length byte above 0 (R99). -/
abbrev readLengthOk (length : Byte) : Bool := length != 0

/-- The register table has as many registers as some legal `CATALOG_REGS` (R8, R99). -/
abbrev tableOk (table : List Half) : Bool := 1 ≤ table.length && table.length ≤ 127

/-- The instruction's operands are such as its encoding admits. -/
def Instr.wellFormed : Instr → Bool
  | .nop | .reset | .clrerr | .rd _ | .wr _ _ | .ibClr => true
  | .ibLoad data => loadOk data
  | .rdi _ | .rdo _ | .rdp _ | .rdd _ => true
  | .crcInit | .crcUpd _ | .crcBuf _ _ | .sumInit | .sumUpd _ | .sumBuf _ _ => true
  | .epRun | .envBuild _ | .mbReq _ _ _ => true
  | .mpCmd a => sourceOk a
  | .mpRsp a => sourceOk a
  | .fxU16 _ | .fxS16 _ | .fxD32 _ => true
  | .wireEnvelopeFrame _ _ _ _ data _ _ _ => frameDataOk data
  | .wireModbusRequest _ _ _ _ => true
  | .wireModbusResponseAck functionCode _ => ackCodeOk functionCode
  | .wireModbusResponseEmptyRead _ => true
  | .wireModbusResponseRead length table _ => readLengthOk length && tableOk table

end Sys2Proof
end

