-- ==== Sys2Proof/Decode.lean ====
section
/-! DEFINITION. The command decoder (30_encoding.md R91 to R96), the reading of a message by its wire format (R97 to
R100), the encoders of both, and the reading of an opcode-table word. -/

namespace Sys2Proof

/-- Why a byte string is not an instruction. The first four are the illegal commands of R94. -/
inductive DecodeError where
  /-- The empty byte string. -/
  | emptyCommand
  /-- An opcode that R93 does not list. -/
  | reservedOpcode (op : Byte)
  /-- Too short, or with bytes left over. -/
  | wrongLength (op : Byte)
  /-- `MP.CMD` or `MP.RSP` with a span selector above 1. -/
  | badSource (op : Byte)
  /-- A message read as a frame that does not begin with `START_DELIM`. -/
  | notAFrame
  /-- A message of a length that its wire format does not have. -/
  | messageLength
  /-- The reset input is no instruction. -/
  | resetInput
deriving DecidableEq, Repr

/-- `cmd-Z`: no operand. -/
def formatZ (op : Byte) (rest : List Byte) (i : Instr) : Except DecodeError Instr :=
  match rest with
  | [] => .ok i
  | _ => .error (.wrongLength op)

/-- `cmd-B`: one 8-bit operand. -/
def formatB (op : Byte) (rest : List Byte) (i : Byte → Instr) : Except DecodeError Instr :=
  match rest with
  | [a] => .ok (i a)
  | _ => .error (.wrongLength op)

/-- `cmd-B` with a span selector, which R94 bounds. -/
def formatSource (op : Byte) (rest : List Byte) (i : Byte → Instr) : Except DecodeError Instr :=
  match rest with
  | [a] => if sourceOk a then .ok (i a) else .error (.badSource op)
  | _ => .error (.wrongLength op)

/-- `cmd-H`: one 16-bit operand. -/
def formatH (op : Byte) (rest : List Byte) (i : Half → Instr) : Except DecodeError Instr :=
  if rest.length = 2 then .ok (i (ofBE16 rest)) else .error (.wrongLength op)

/-- `cmd-HH`: two 16-bit operands. -/
def formatHH (op : Byte) (rest : List Byte) (i : Half → Half → Instr) : Except DecodeError Instr :=
  if rest.length = 4 then .ok (i (ofBE16 rest) (ofBE16 (slice rest 2 2))) else .error (.wrongLength op)

/-- `cmd-W`: one 32-bit operand. -/
def formatW (op : Byte) (rest : List Byte) (i : Word → Instr) : Except DecodeError Instr :=
  if rest.length = 4 then .ok (i (ofBE32 rest)) else .error (.wrongLength op)

/-- `cmd-RW`: a register number and a 32-bit value. -/
def formatRW (op : Byte) (rest : List Byte) (i : Byte → Word → Instr) : Except DecodeError Instr :=
  if rest.length = 5 then .ok (i (byteAt rest 0) (ofBE32 (slice rest 1 4))) else .error (.wrongLength op)

/-- `cmd-Q`: three 16-bit operands. -/
def formatQ (op : Byte) (rest : List Byte) (i : Half → Half → Half → Instr) : Except DecodeError Instr :=
  if rest.length = 6 then .ok (i (ofBE16 rest) (ofBE16 (slice rest 2 2)) (ofBE16 (slice rest 4 2)))
  else .error (.wrongLength op)

/-- `cmd-V`: a count, then as many data bytes. -/
def formatV (op : Byte) (rest : List Byte) (i : List Byte → Instr) : Except DecodeError Instr :=
  match rest with
  | [] => .error (.wrongLength op)
  | n :: data => if data.length = n.toNat then .ok (i data) else .error (.wrongLength op)

/-- The decoder of R96 over the opcode map of R93: total, every other byte string rejected by name. -/
def decode (s : List Byte) : Except DecodeError Instr :=
  match s with
  | [] => .error .emptyCommand
  | op :: rest =>
    match op.toNat with
    | 0x00 => formatZ op rest .nop
    | 0x01 => formatZ op rest .reset
    | 0x02 => formatZ op rest .clrerr
    | 0x03 => formatB op rest .rd
    | 0x04 => formatRW op rest .wr
    | 0x08 => formatZ op rest .ibClr
    | 0x09 => formatV op rest .ibLoad
    | 0x0A => formatH op rest .rdi
    | 0x0B => formatH op rest .rdo
    | 0x0C => formatB op rest .rdp
    | 0x0D => formatB op rest .rdd
    | 0x10 => formatZ op rest .crcInit
    | 0x11 => formatB op rest .crcUpd
    | 0x12 => formatHH op rest .crcBuf
    | 0x18 => formatZ op rest .sumInit
    | 0x19 => formatB op rest .sumUpd
    | 0x1A => formatHH op rest .sumBuf
    | 0x20 => formatZ op rest .epRun
    | 0x21 => formatW op rest .envBuild
    | 0x30 => formatQ op rest .mbReq
    | 0x31 => formatSource op rest .mpCmd
    | 0x32 => formatSource op rest .mpRsp
    | 0x38 => formatB op rest .fxU16
    | 0x39 => formatB op rest .fxS16
    | 0x3A => formatB op rest .fxD32
    | _ => .error (.reservedOpcode op)

/-- A frame's fields at the offsets of R97; the payload is what lies between the data field and the last two bytes.
Only the start delimiter is matched: what the other fields hold is the parser's to judge (43_envelope.md R172 to R180). -/
def decodeFrame (s : List Byte) : Except DecodeError Instr :=
  if byteAt s 0 ≠ startDelim then .error .notAFrame
  else if s.length < 28 then .error .messageLength
  else .ok (.wireEnvelopeFrame (ofLE16 (slice s 1 2)) (ofBE16 (slice s 3 2)) (ofBE16 (slice s 5 2))
    (ofLE32 (slice s 7 4)) (slice s 11 15) (slice s 26 (s.length - 28)) (byteAt s (s.length - 2)) (byteAt s (s.length - 1)))

/-- The request layout of R98: every 8-byte string has it. -/
def decodeRequest (s : List Byte) : Except DecodeError Instr :=
  if s.length = 8 then
    .ok (.wireModbusRequest (ofBE16 (slice s 0 2)) (ofBE16 (slice s 2 2)) (ofBE16 (slice s 4 2)) (ofLE16 (slice s 6 2)))
  else .error .messageLength

/-- How many registers a read response of `n` bytes in all holds (R99: it has `5 + 2C` bytes). -/
def tableCount (n : Nat) : Nat := (n - 5) / 2

/-- The three response shapes of R99, selected by the function code and the length byte (R100). -/
def decodeResponse (s : List Byte) : Except DecodeError Instr :=
  if s.length < 4 then .error .messageLength
  else if ofBE16 (slice s 0 2) ≠ fcRead then
    if s.length = 4 then .ok (.wireModbusResponseAck (ofBE16 (slice s 0 2)) (ofLE16 (slice s 2 2)))
    else .error .messageLength
  else if byteAt s 2 = 0 then
    if s.length = 5 then .ok (.wireModbusResponseEmptyRead (ofLE16 (slice s 3 2))) else .error .messageLength
  else if s.length = 5 + 2 * tableCount s.length ∧ 1 ≤ tableCount s.length ∧ tableCount s.length ≤ 127 then
    .ok (.wireModbusResponseRead (byteAt s 2) (tableOf (tableCount s.length) (s.drop 3)) (ofLE16 (slice s (s.length - 2) 2)))
  else .error .messageLength

/-- A message read as the wire format it is meant as. -/
def decodeMessage (kind : MessageKind) (s : List Byte) : Except DecodeError Instr :=
  match kind with
  | .frame => decodeFrame s
  | .request => decodeRequest s
  | .response => decodeResponse s

/-- The instruction a host input stands for. -/
def decodeInput : HostInput → Except DecodeError Instr
  | .command bytes => decode bytes
  | .message kind bytes => decodeMessage kind bytes
  | .resetInput => .error .resetInput

/-- The bytes of an instruction: a command by R91 to R93, a message by R97 to R99. -/
def encode : Instr → List Byte
  | .nop => [0x00]
  | .reset => [0x01]
  | .clrerr => [0x02]
  | .rd a => [0x03, a]
  | .wr r v => 0x04 :: r :: be32 v
  | .ibClr => [0x08]
  | .ibLoad data => 0x09 :: BitVec.ofNat 8 data.length :: data
  | .rdi a => 0x0A :: be16 a
  | .rdo a => 0x0B :: be16 a
  | .rdp a => [0x0C, a]
  | .rdd a => [0x0D, a]
  | .crcInit => [0x10]
  | .crcUpd a => [0x11, a]
  | .crcBuf a b => 0x12 :: (be16 a ++ be16 b)
  | .sumInit => [0x18]
  | .sumUpd a => [0x19, a]
  | .sumBuf a b => 0x1A :: (be16 a ++ be16 b)
  | .epRun => [0x20]
  | .envBuild a => 0x21 :: be32 a
  | .mbReq a b c => 0x30 :: (be16 a ++ be16 b ++ be16 c)
  | .mpCmd a => [0x31, a]
  | .mpRsp a => [0x32, a]
  | .fxU16 a => [0x38, a]
  | .fxS16 a => [0x39, a]
  | .fxD32 a => [0x3A, a]
  | .wireEnvelopeFrame length control counter serial data payload checksum fin =>
    startDelim :: (le16 length ++ be16 control ++ be16 counter ++ le32 serial ++ data ++ payload ++ [checksum, fin])
  | .wireModbusRequest functionCode startRegister count crc =>
    be16 functionCode ++ be16 startRegister ++ be16 count ++ le16 crc
  | .wireModbusResponseAck functionCode crc => be16 functionCode ++ le16 crc
  | .wireModbusResponseEmptyRead crc => be16 fcRead ++ [0x00] ++ le16 crc
  | .wireModbusResponseRead length table crc => be16 fcRead ++ [length] ++ tableBytes table ++ le16 crc

/-- How a host presents an instruction: a command on the command port, a wire row as a message of its kind. -/
def present (i : Instr) : HostInput :=
  match i with
  | .wireEnvelopeFrame .. => .message .frame (encode i)
  | .wireModbusRequest .. => .message .request (encode i)
  | .wireModbusResponseAck .. => .message .response (encode i)
  | .wireModbusResponseEmptyRead .. => .message .response (encode i)
  | .wireModbusResponseRead .. => .message .response (encode i)
  | _ => .command (encode i)

/-- The first byte of a command, 0 for the empty string: what an illegal command records (R94). -/
def firstByte (s : List Byte) : Byte := byteAt s 0

/-- The bytes of an opcode-table word, the least significant first. -/
def wordBytes : Nat → Nat → List Byte
  | 0, _ => []
  | n + 1, w => BitVec.ofNat 8 w :: wordBytes n (w / 256)

/-- A byte string made up to `n` bytes with zeros. -/
def padTo (n : Nat) (s : List Byte) : List Byte := s ++ List.replicate (n - s.length) 0

/-- The length a command with these first bytes needs, its count byte 0 where it is not given (the `need` of R96). -/
def neededLength (s : List Byte) : Nat :=
  match (firstByte s).toNat with
  | 0x00 | 0x01 | 0x02 | 0x08 | 0x10 | 0x18 | 0x20 => 1
  | 0x03 | 0x0C | 0x0D | 0x11 | 0x19 | 0x31 | 0x32 | 0x38 | 0x39 | 0x3A => 2
  | 0x0A | 0x0B => 3
  | 0x12 | 0x1A | 0x21 => 5
  | 0x04 => 6
  | 0x30 => 7
  | 0x09 => 2 + (byteAt s 1).toNat
  | _ => 0

/-- A wire row of the opcode table by its fixed bits, which the table gives as one number with the first byte the most
significant; the bytes the table gives no bits are 0 (log entry 8). -/
def wireInput (s : List Byte) : Option HostInput :=
  if byteAt s 0 = startDelim then some (.message .frame (padTo 28 s))
  else if ofBE16 s = fcRead ∧ 2 ≤ s.length then
    if byteAt s 2 = 0 then some (.message .response (padTo 5 s))
    else some (.message .response (padTo (5 + 2 * Config.recommended.catalogRegs) s))
  else none

/-- The host input an opcode-table word stands for: the command it decodes to, else the wire row whose fixed bits it
has, else the illegal command it is (log entry 8). -/
def tableInput (nbits w : Nat) : HostInput :=
  let s := wordBytes ((nbits + 7) / 8) w
  let command := padTo (neededLength s) s
  match decode command with
  | .ok _ => .command command
  | .error _ => (wireInput s.reverse).getD (.command command)

/-- The instruction the decoder reads from an opcode-table word. -/
def decodeTableWord (nbits w : Nat) : Option Instr :=
  match decodeInput (tableInput nbits w) with
  | .ok i => some i
  | .error _ => none

end Sys2Proof
end

