-- ==== Sys2Proof/Machine/Buffers.lean ====
section
/-! DEFINITION. The input-buffer commands and the read-out commands (42_system_and_buffers.md R155 to R160). -/

namespace Sys2Proof.Machine

/-- `IB.CLR` and a successful `IB.LOAD` mark every parse result stale (R155, R156; 20_memory.md R68). -/
def State.staleSpans (s : State) : State :=
  ((s.setFlag .eValid false).setFlag .eHaspl false).setFlag .mValid false

/-- `IB.CLR` (R155): the bytes stay where they are and become unreachable. -/
def execIbClr (s : State) : Host.Outcome State Fault Refusal :=
  completed (State.staleSpans { s with ilen := 0 })

/-- `IB.LOAD d` (R156): it appends, whole or not at all. -/
def execIbLoad (data : List Byte) (s : State) : Host.Outcome State Fault Refusal :=
  if s.ilen.toNat + data.length > s.cfg.ibufMax then (raise .outOfRange s.ilen.toNat 0 s).finish
  else
    completed (State.staleSpans
      { s with
        ibuf := Mem.writeRange s.ibuf s.ilen.toNat data
        ilen := BitVec.ofNat 16 (s.ilen.toNat + data.length) })

/-- `RDI a` (R157). -/
def execRdi (a : Half) (s : State) : Host.Outcome State Fault Refusal :=
  (readByteOut s .ibuf a.toNat s.ilen.toNat).finish

/-- `RDO a` (R158). -/
def execRdo (a : Half) (s : State) : Host.Outcome State Fault Refusal :=
  (readByteOut s .obuf a.toNat s.olen.toNat).finish

/-- `RDP a` (R159): every index fails before the first `MB.REQ`. -/
def execRdp (a : Byte) (s : State) : Host.Outcome State Fault Refusal :=
  (readByteOut s .pbuf a.toNat (if s.flag .pbValid then reqLen else 0)).finish

/-- `RDD a` (R160). -/
def execRdd (a : Byte) (s : State) : Host.Outcome State Fault Refusal :=
  if a.toNat ≥ s.cfg.dataLen then (raise .illegalCommand 0 0x0D s).finish
  else (memRead s .eData a.toNat 1 fun bytes => .go { s with rdata := zext32 (byteAt bytes 0) }).finish

end Sys2Proof.Machine
end

