-- ==== Sys2Proof/Machine/Sum.lean ====
section
/-! DEFINITION. The 8-bit additive checksum unit (41_sum8.md). -/

namespace Sys2Proof.Machine

/-- `sum8(s)` (R140): the carry out of bit 7 is dropped. -/
def sum8 (s : List Byte) : Byte := s.foldl (fun acc b => acc + b) 0

/-- `SUM.INIT` (R142). -/
def execSumInit (s : State) : Host.Outcome State Fault Refusal := completed { s with sum := 0x00 }

/-- `SUM.UPD a` (R143). -/
def execSumUpd (a : Byte) (s : State) : Host.Outcome State Fault Refusal := completed { s with sum := s.sum + a }

/-- `SUM.BUF a, b` (R144); `a + b` is formed without wrap-around. -/
def execSumBuf (a b : Half) (s : State) : Host.Outcome State Fault Refusal :=
  if a.toNat + b.toNat > s.ilen.toNat then (raise .truncatedInput a.toNat 0 s).finish
  else (memRead s .ibuf a.toNat b.toNat fun bytes => .go { s with sum := sum8 bytes }).finish

end Sys2Proof.Machine
end

