-- ==== Sys2Proof/Machine/Envelope.lean ====
section
/-! DEFINITION. The envelope parser and assembler (43_envelope.md). -/

namespace Sys2Proof.Machine

/-- Entry `n - 1` is decoded and the FSM moves on: `E_NENT <- n ; E_STATE <- S`. -/
def State.envelopeAt (s : State) (n : Nat) (st : EnvelopeState) : State :=
  { s with eNent := BitVec.ofNat 8 n, eState := st.code }

/-- The payload length `N` that the length field gives (R178). -/
def State.payloadLen (s : State) : Nat := s.eLen.toNat - s.cfg.lenBias

/-- What `EP.RUN` clears before it reads anything (R171). -/
def State.envelopeClear (s : State) : State :=
  let t := { s with
    eStart := 0, eLen := 0, eCtrl := 0, eCnt := 0, eSer := 0, ePoff := 0, ePlen := 0, eChk := 0, eEnd := 0,
    eToff := 0, eTlen := 0, eNent := 0, eData := [], eState := EnvelopeState.expectStart.code }
  ((t.setFlag .eValid false).setFlag .eHaspl false).setFlag .chkBad false

/-- ExpectStart, entry 0 (R172). -/
def envelopeStart (s : State) : Run :=
  take s 0 1 0 fun b =>
    let t := { s with eStart := byteAt b 0 }
    if byteAt b 0 ≠ startDelim then raise .badDelimiter 0 0 t else .go (t.envelopeAt 1 .expectLength)

/-- ExpectLength, entry 1 (R173). -/
def envelopeLength (s : State) : Run :=
  take s 1 2 1 fun b => .go (State.envelopeAt { s with eLen := ofLE16 b } 2 .expectControl)

/-- ExpectControl, entry 2 (R174): compared with nothing. -/
def envelopeControl (s : State) : Run :=
  take s 3 2 2 fun b => .go (State.envelopeAt { s with eCtrl := ofBE16 b } 3 .expectCounter)

/-- ExpectCounter, entry 3 (R175): compared with nothing. -/
def envelopeCounter (s : State) : Run :=
  take s 5 2 3 fun b => .go (State.envelopeAt { s with eCnt := ofBE16 b } 4 .expectSerial)

/-- ExpectSerial, entry 4 (R176). -/
def envelopeSerial (s : State) : Run :=
  take s 7 4 4 fun b => .go (State.envelopeAt { s with eSer := ofLE32 b } 5 .expectData)

/-- ExpectData, entry 5 (R177): stored verbatim. -/
def envelopeData (s : State) : Run :=
  take s hdrLen s.cfg.dataLen 5 fun b =>
    .go (State.envelopeAt { s with eData := Mem.writeRange s.eData 0 b } 6 .expectPayload)

/-- ExpectPayload, entry 6 (R178): the length field fixes the payload's extent; the bytes are not copied. -/
def envelopePayload (s : State) : Run :=
  if s.eLen.toNat < s.cfg.lenBias then raise .malformedSchema s.cfg.payloadOffset 6 s
  else
    take s s.cfg.payloadOffset s.payloadLen 6 fun _ =>
      .go (State.envelopeAt
        (State.setFlag
          { s with ePoff := BitVec.ofNat 16 s.cfg.payloadOffset, ePlen := BitVec.ofNat 16 s.payloadLen } .eHaspl true)
        7 .expectChecksum)

/-- ExpectChecksum, entry 7 (R179): a mismatch sets `CHK_BAD` and does not stop the parse. -/
def envelopeChecksum (s : State) : Run :=
  take s (s.cfg.payloadOffset + s.payloadLen) 1 7 fun b =>
    memRead s .ibuf 1 (s.cfg.payloadOffset - 1 + s.payloadLen) fun covered =>
      .go (State.envelopeAt
        (State.setFlag { s with eChk := byteAt b 0, sum := sum8 covered } .chkBad (sum8 covered != byteAt b 0))
        8 .expectEnd)

/-- ExpectEnd, entry 8 (R180). -/
def envelopeEnd (s : State) : Run :=
  take s (s.cfg.payloadOffset + 1 + s.payloadLen) 1 8 fun b =>
    let t := { s with eEnd := byteAt b 0 }
    if byteAt b 0 ≠ endDelim then raise .badDelimiter (s.cfg.payloadOffset + 1 + s.payloadLen) 8 t
    else .go (t.envelopeAt 9 .done)

/-- Done (R181): the trailing span, the valid mark and, last, the deferred flag. -/
def envelopeDone (s : State) : Run :=
  let e := s.cfg.payloadOffset + 2 + s.payloadLen
  let t := State.setFlag { s with eToff := BitVec.ofNat 16 e, eTlen := BitVec.ofNat 16 (s.ilen.toNat - e) } .eValid true
  if t.flag .chkBad then flagMismatch (s.cfg.payloadOffset + s.payloadLen) 7 t else .go t

/-- The states of the envelope FSM in the order they run (R171). -/
def envelopeStates : List (State → Run) :=
  [envelopeStart, envelopeLength, envelopeControl, envelopeCounter, envelopeSerial, envelopeData, envelopePayload,
    envelopeChecksum, envelopeEnd, envelopeDone]

/-- Parts of a command in order, each run only if the one before it went on. -/
def runAll : List (State → Run) → State → Run
  | [], s => .go s
  | f :: rest, s => (f s).andThen (runAll rest)

/-- `EP.RUN` (R171). -/
def execEpRun (s : State) : Host.Outcome State Fault Refusal := (runAll envelopeStates s.envelopeClear).finish

/-- The bytes `ENV.BUILD` assembles, the checksum's place held by 0x00 (R184, R186). -/
def frameDraft (s : State) (serial : Word) : List Byte :=
  startDelim :: (le16 (BitVec.ofNat 16 (s.cfg.lenBias + reqLen)) ++ be16 s.ctrl ++ be16 s.cnt ++ le32 serial
    ++ s.cfg.dataPattern ++ Mem.readRange s.pbuf 0 reqLen ++ [0x00, endDelim])

/-- `ENV.BUILD a` (R184, R185): the placeholder is overwritten with the checksum of the bytes between the start
delimiter and it; then the counter advances, modulo 65536. -/
def execEnvBuild (a : Word) (s : State) : Host.Outcome State Fault Refusal :=
  if s.flag .pbValid then
    let draft := Mem.writeRange s.obuf 0 (frameDraft s a)
    let covered := s.cfg.payloadOffset - 1 + reqLen
    let check := sum8 (Mem.readRange draft 1 covered)
    completed (State.setFlag
      { s with
        sum := check
        obuf := Mem.write draft (covered + 1) check
        olen := BitVec.ofNat 16 s.cfg.obufLen
        cnt := s.cnt + 1 } .obValid true)
  else (raise .sequenceError 0 0 s).finish

end Sys2Proof.Machine
end

