-- ==== Sys2Proof/Machine/Crc.lean ====
section
/-! DEFINITION. The CRC-16 unit (40_crc16.md). PRESUMED: polynomial, initial value, bit order and the absence of a final
inversion are the spec's from general knowledge (its G1; log entry 9). -/

namespace Sys2Proof.Machine

/-- One shift of `crc_step` (R131). -/
def crcShift (c : Half) : Half := if c.getLsbD 0 then (c >>> 1) ^^^ crcPolyR else c >>> 1

/-- `n` shifts. -/
def crcShifts : Nat → Half → Half
  | 0, c => c
  | n + 1, c => crcShifts n (crcShift c)

/-- `crc_step(c, b)` (R131): the byte enters at the low end, then eight shifts. -/
def crcStep (c : Half) (b : Byte) : Half := crcShifts 8 (c ^^^ b.setWidth 16)

/-- `crc16(s)` (R130): from `CRC_INIT`, each byte in order, no final inversion. -/
def crc16 (s : List Byte) : Half := s.foldl crcStep crcInitValue

/-- `CRC.INIT` (R133). -/
def execCrcInit (s : State) : Host.Outcome State Fault Refusal := completed { s with crc := crcInitValue }

/-- `CRC.UPD a` (R134). -/
def execCrcUpd (a : Byte) (s : State) : Host.Outcome State Fault Refusal := completed { s with crc := crcStep s.crc a }

/-- `CRC.BUF a, b` (R135); `a + b` is formed without wrap-around. -/
def execCrcBuf (a b : Half) (s : State) : Host.Outcome State Fault Refusal :=
  if a.toNat + b.toNat > s.ilen.toNat then (raise .truncatedInput a.toNat 0 s).finish
  else (memRead s .ibuf a.toNat b.toNat fun bytes => .go { s with crc := crc16 bytes }).finish

end Sys2Proof.Machine
end

