-- ==== Sys2Proof/Machine/Modbus.lean ====
section
/-! DEFINITION. The Modbus request assembler, the command and response parsers and the register views (44_modbus.md). -/

namespace Sys2Proof.Machine

/-- `MB.REQ a, b, c` (R190). -/
def execMbReq (a b c : Half) (s : State) : Host.Outcome State Fault Refusal :=
  let body := be16 a ++ be16 b ++ be16 c
  let check := crc16 body
  completed (State.setFlag
    (State.setFlag { s with pbuf := Mem.writeRange s.pbuf 0 (body ++ le16 check), crc := check, olen := 0 } .pbValid true)
    .obValid false)

/-- Entry `n - 1` is decoded and the FSM moves on: `M_NENT <- n ; M_STATE <- S`. -/
def State.modbusAt (s : State) (n : Nat) (st : ModbusState) : State :=
  { s with mNent := BitVec.ofNat 8 n, mState := st.code }

/-- The start of a Modbus parse: the span (R191), then ExpectFunctionCode (R193, R194). -/
def modbusStart (op src : Byte) (isResponse : Bool) (s : State) : Run :=
  (selectSpan op src isResponse s).andThen fun t => .go { t with mState := ModbusState.expectFunctionCode.code }

/-- ExpectCRC and Done, of a request (R193) and of a response (R200, R201): the CRC field at span offset `pos` is entry
`ent`; the computed CRC covers every span byte before it (R202; log entry 10). A mismatch is flagged last of all. -/
def modbusCrc (pos ent : Nat) (s : State) : Run :=
  mtake s pos 2 ent .truncatedInput fun b =>
    memRead s .ibuf s.mBase.toNat pos fun covered =>
      let t := State.modbusAt
        (State.setFlag { s with mCrc := ofLE16 b, crc := crc16 covered } .crcBad (crc16 covered != ofLE16 b))
        (ent + 1) .done
      let u := State.setFlag
        { t with mToff := BitVec.ofNat 16 (pos + 2), mTlen := BitVec.ofNat 16 (s.mSlen.toNat - (pos + 2)) } .mValid true
      if u.flag .crcBad then flagMismatch pos ent u else .go u

/-- Entry 0 of a request (R193). -/
def requestFunctionCode (s : State) : Run :=
  mtake s 0 2 0 .truncatedInput fun b => .go (State.modbusAt { s with mFc := ofBE16 b } 1 .expectStart)

/-- Entry 1 of a request (R193). -/
def requestStart (s : State) : Run :=
  mtake s 2 2 1 .truncatedInput fun b => .go (State.modbusAt { s with mStart := ofBE16 b } 2 .expectCount)

/-- Entry 2 of a request (R193). -/
def requestCount (s : State) : Run :=
  mtake s 4 2 2 .truncatedInput fun b => .go (State.modbusAt { s with mCount := ofBE16 b } 3 .expectCrc)

/-- `MP.CMD a` (R193). -/
def execMpCmd (a : Byte) (s : State) : Host.Outcome State Fault Refusal :=
  ((((modbusStart 0x31 a false s).andThen requestFunctionCode).andThen requestStart).andThen requestCount
    |>.andThen (modbusCrc 6 3)).finish

/-- ExpectPayload (R199): `left` more registers, the next one number `i`. -/
def responseTable : Nat → Nat → State → Run
  | 0, _, s => .go s
  | left + 1, i, s =>
    mtake s (3 + 2 * i) 2 (2 + i) .truncatedInput fun b =>
      responseTable left (i + 1)
        { s with
          mReg := Mem.write s.mReg i (ofBE16 b)
          mNreg := BitVec.ofNat 8 (i + 1)
          mNent := BitVec.ofNat 8 (3 + i) }

/-- ExpectPayload, then ExpectCRC (R199): exactly `CATALOG_REGS` registers, whatever the length byte above 0 is. -/
def responsePayload (s : State) : Run :=
  (responseTable s.cfg.catalogRegs 0 s).andThen fun t =>
    modbusCrc (3 + 2 * t.cfg.catalogRegs) (t.cfg.catalogRegs + 2) { t with mState := ModbusState.expectCrc.code }

/-- ExpectLength (R198): the length byte is only a switch; its absence is `MalformedSchema`. -/
def responseLength (s : State) : Run :=
  mtake s 2 1 1 .malformedSchema fun b =>
    let t := { s with mLen := byteAt b 0 }
    if byteAt b 0 ≠ 0 then responsePayload (t.modbusAt 2 .expectPayload)
    else modbusCrc 3 2 (t.modbusAt 2 .expectCrc)

/-- ExpectFunctionCode (R197): decode and dispatch on all 16 bits. -/
def responseFunctionCode (s : State) : Run :=
  mtake s 0 2 0 .truncatedInput fun b =>
    let t := { s with mFc := ofBE16 b }
    if ofBE16 b = fcRead then responseLength (t.modbusAt 1 .expectLength)
    else modbusCrc 2 1 (t.modbusAt 1 .expectCrc)

/-- `MP.RSP a` (R194). -/
def execMpRsp (a : Byte) (s : State) : Host.Outcome State Fault Refusal :=
  ((modbusStart 0x32 a true s).andThen responseFunctionCode).finish

/-- The error of a register view (R205, R206, R207): the offset and entry the register would have had. -/
def viewError (a : Nat) (s : State) : Run := raise .truncatedInput (3 + 2 * a) (2 + a) s

/-- `FX.U16 a` (R205). -/
def execFxU16 (a : Byte) (s : State) : Host.Outcome State Fault Refusal :=
  (if a.toNat ≥ s.mNreg.toNat then viewError a.toNat s
   else regRead s a.toNat fun v => .go { s with rdata := zext32 v }).finish

/-- `FX.S16 a` (R206). -/
def execFxS16 (a : Byte) (s : State) : Host.Outcome State Fault Refusal :=
  (if a.toNat ≥ s.mNreg.toNat then viewError a.toNat s
   else regRead s a.toNat fun v => .go { s with rdata := sext32 v }).finish

/-- `FX.D32 a` (R207): the low word comes first on the wire. -/
def execFxD32 (a : Byte) (s : State) : Host.Outcome State Fault Refusal :=
  (if a.toNat + 1 ≥ s.mNreg.toNat then viewError a.toNat s
   else regRead s a.toNat fun low => regRead s (a.toNat + 1) fun high => .go { s with rdata := high ++ low }).finish

end Sys2Proof.Machine
end

