-- ==== Sys2Proof/Machine/Wire.lean ====
section
/-! DEFINITION. The wire-format rows (30_encoding.md R97 to R99) as what the spec has a host do with such a message:
`IB.SET` of its bytes (R102), then the parser for it (70_reset_and_hazards.md R263, 44_modbus.md R191). DESIGN CHOICE:
one step for the whole procedure (log entry 7). -/

namespace Sys2Proof.Machine

/-- The most data bytes one `IB.LOAD` carries (30_encoding.md R91). -/
def chunkSize : Nat := 255

/-- A byte string cut into consecutive chunks of at most 255 bytes (R102); `fuel` is at least its length. -/
def chunks : Nat → List Byte → List (List Byte)
  | _, [] => []
  | 0, _ => []
  | fuel + 1, b :: rest => (b :: rest).take chunkSize :: chunks fuel ((b :: rest).drop chunkSize)

/-- `IB.SET s` (R102): `IB.CLR`, then `IB.LOAD` of each chunk, each whatever the outcome of the one before it. -/
def setInput (bytes : List Byte) (s : State) : Host.Outcome State Fault Refusal :=
  (chunks bytes.length bytes).foldl (fun o c => afterNext o (execIbLoad c)) (execIbClr s)

/-- The host's procedure for a message: load it, then run the parser for its kind. A bare Modbus message is parsed with
`src = 1` (R191). -/
def handOver (kind : MessageKind) (bytes : List Byte) (s : State) : Host.Outcome State Fault Refusal :=
  match kind with
  | .frame => afterNext (setInput bytes s) execEpRun
  | .request => afterNext (setInput bytes s) (execMpCmd 1)
  | .response => afterNext (setInput bytes s) (execMpRsp 1)

/-- `wire-envelope-frame` (R97). -/
def execWireEnvelopeFrame (length control counter : Half) (serial : Word) (data payload : List Byte)
    (checksum fin : Byte) (s : State) : Host.Outcome State Fault Refusal :=
  handOver .frame (encode (.wireEnvelopeFrame length control counter serial data payload checksum fin)) s

/-- `wire-modbus-request` (R98). -/
def execWireModbusRequest (functionCode startRegister count crc : Half) (s : State) :
    Host.Outcome State Fault Refusal :=
  handOver .request (encode (.wireModbusRequest functionCode startRegister count crc)) s

/-- `wire-modbus-response-ack` (R99, R100). -/
def execWireModbusResponseAck (functionCode crc : Half) (s : State) : Host.Outcome State Fault Refusal :=
  handOver .response (encode (.wireModbusResponseAck functionCode crc)) s

/-- `wire-modbus-response-empty-read` (R99). -/
def execWireModbusResponseEmptyRead (crc : Half) (s : State) : Host.Outcome State Fault Refusal :=
  handOver .response (encode (.wireModbusResponseEmptyRead crc)) s

/-- `wire-modbus-response-read` (R99). -/
def execWireModbusResponseRead (length : Byte) (table : List Half) (crc : Half) (s : State) :
    Host.Outcome State Fault Refusal :=
  handOver .response (encode (.wireModbusResponseRead length table crc)) s

end Sys2Proof.Machine
end

