-- ==== Sys2Proof/Machine/Dispatch.lean ====
section
/-! DEFINITION. The dispatch of every instruction to its meaning. -/

namespace Sys2Proof.Machine

def exec (i : Instr) (s : State) : Host.Outcome State Fault Refusal :=
  match i with
  | .nop => Sys2Proof.Machine.execNop s
  | .reset => Sys2Proof.Machine.execReset s
  | .clrerr => Sys2Proof.Machine.execClrerr s
  | .rd a => Sys2Proof.Machine.execRd a s
  | .wr r v => Sys2Proof.Machine.execWr r v s
  | .ibClr => Sys2Proof.Machine.execIbClr s
  | .ibLoad data => Sys2Proof.Machine.execIbLoad data s
  | .rdi a => Sys2Proof.Machine.execRdi a s
  | .rdo a => Sys2Proof.Machine.execRdo a s
  | .rdp a => Sys2Proof.Machine.execRdp a s
  | .rdd a => Sys2Proof.Machine.execRdd a s
  | .crcInit => Sys2Proof.Machine.execCrcInit s
  | .crcUpd a => Sys2Proof.Machine.execCrcUpd a s
  | .crcBuf a b => Sys2Proof.Machine.execCrcBuf a b s
  | .sumInit => Sys2Proof.Machine.execSumInit s
  | .sumUpd a => Sys2Proof.Machine.execSumUpd a s
  | .sumBuf a b => Sys2Proof.Machine.execSumBuf a b s
  | .epRun => Sys2Proof.Machine.execEpRun s
  | .envBuild a => Sys2Proof.Machine.execEnvBuild a s
  | .mbReq a b c => Sys2Proof.Machine.execMbReq a b c s
  | .mpCmd a => Sys2Proof.Machine.execMpCmd a s
  | .mpRsp a => Sys2Proof.Machine.execMpRsp a s
  | .fxU16 a => Sys2Proof.Machine.execFxU16 a s
  | .fxS16 a => Sys2Proof.Machine.execFxS16 a s
  | .fxD32 a => Sys2Proof.Machine.execFxD32 a s
  | .wireEnvelopeFrame l ctl cnt ser dat pay chk fin => Sys2Proof.Machine.execWireEnvelopeFrame l ctl cnt ser dat pay chk fin s
  | .wireModbusRequest fc st n crc => Sys2Proof.Machine.execWireModbusRequest fc st n crc s
  | .wireModbusResponseAck fc crc => Sys2Proof.Machine.execWireModbusResponseAck fc crc s
  | .wireModbusResponseEmptyRead crc => Sys2Proof.Machine.execWireModbusResponseEmptyRead crc s
  | .wireModbusResponseRead l table crc => Sys2Proof.Machine.execWireModbusResponseRead l table crc s

end Sys2Proof.Machine
end

