-- ==== Sys2Proof/Machine/Serve.lean ====
section
/-! DEFINITION. How the FCB serves one host input: decode, execute, report (42_system_and_buffers.md R161;
70_reset_and_hazards.md R260, R268). -/

namespace Sys2Proof.Machine

/-- An illegal command (30_encoding.md R94, 60_exceptions.md R228): the first byte is recorded, nothing else changes. -/
def illegalCommand (bytes : List Byte) (s : State) : Host.Outcome State Fault Refusal :=
  (raise .illegalCommand 0 (firstByte bytes).toNat s).finish

/-- A host input whose decoding fails: an illegal command, a message no wire row describes (its bytes are loaded and
parsed like any other, and the parser says what is wrong; log entry 7), or the reset input, after which no command has
completed (R260, R261; log entry 14). -/
def serveOther (input : HostInput) (s : State) : Host.Outcome State Fault Refusal :=
  match input with
  | .command bytes => illegalCommand bytes s
  | .message kind bytes => handOver kind bytes s
  | .resetInput => .next s.resetAll

/-- One host input served whole (R161). -/
def serve (input : HostInput) (s : State) : Host.Outcome State Fault Refusal :=
  match decodeInput input with
  | .ok i => exec i s
  | .error _ => serveOther input s

/-- The next host input, if any, is taken off the queue and served. With none queued the FCB waits (60_exceptions.md
R233, 70_reset_and_hazards.md R270): nothing changes. -/
def serveNext (s : State) : Host.Outcome State Fault Refusal :=
  match s.pending with
  | [] => .next s
  | input :: queue => serve input (s.withPending queue)

/-- The host input an opcode-table word stands for, queued to be served next. -/
def queueTableWord (s : State) (nbits w : Nat) : State := s.withPending (tableInput nbits w :: s.pending)

end Sys2Proof.Machine
end

