-- ==== Sys2Proof/Machine/Step.lean ====
section
/-! DEFINITION. One step of the FCB: one host input served (70_reset_and_hazards.md R269: every command is one step). -/

namespace Sys2Proof.Machine

/-- One step. -/
def step : State → Host.Outcome State Fault Refusal := fun s => serveNext s

/-- The state in which the next step runs the instruction of an opcode-table word (log entries 3 and 8). -/
def State.withFetchWord (s : State) (nbits w : Nat) : State := queueTableWord s nbits w

end Sys2Proof.Machine
end

