-- ==== Sys2Proof/Safety.lean ====
section
/-! DEFINITION. The terms claims are made in: what holds in every state a run reaches, sequences of commands, what a
buffer holds, the span a Modbus parser is given, and the state an error leaves. -/

namespace Sys2Proof.Machine

/-- What every state that a run reaches satisfies, when the parameters are legal. -/
structure MachineInv (s : State) : Prop where
  /-- The parameters are in their legal ranges (00_scope.md R8). -/
  cfgLegal : s.cfg.legal
  /-- Every array is in canonical form. -/
  arraysWf : Mem.wf s.ibuf = true ∧ Mem.wf s.pbuf = true ∧ Mem.wf s.obuf = true ∧ Mem.wf s.eData = true ∧
    Mem.wf s.mReg = true
  /-- No array has an element beyond its size (10_state.md R36). -/
  arraysFit : Mem.below s.cfg.ibufMax s.ibuf = true ∧ Mem.below reqLen s.pbuf = true ∧
    Mem.below s.cfg.obufLen s.obuf = true ∧ Mem.below s.cfg.dataLen s.eData = true ∧
    Mem.below s.cfg.catalogRegs s.mReg = true
  /-- `ILEN` is 0 to `IBUF_MAX` (R31). -/
  ilenMax : s.ilen.toNat ≤ s.cfg.ibufMax
  /-- `OLEN` is 36 when `OB_VALID = 1` and 0 otherwise (R31). -/
  olenValid : s.olen.toNat = if s.flag .obValid then s.cfg.obufLen else 0
  /-- A frame is built from a request built since reset (R37). -/
  requestBuilt : s.flag .obValid = true → s.flag .pbValid = true
  /-- `ERR` holds one of the codes 0 to 7 (60_exceptions.md R221). -/
  errRange : s.err.toNat ≤ 7
  /-- `E_STATE` is Idle with nothing decoded, or the state after the entries decoded (R32). -/
  envelopeAt : (s.eState.toNat = 0 ∧ s.eNent.toNat = 0) ∨ (s.eState.toNat = s.eNent.toNat + 1 ∧ s.eNent.toNat ≤ 9)
  /-- `M_STATE` is 0 to 7 (R33). -/
  modbusRange : s.mState.toNat ≤ 7
  /-- A payload span lies in the input buffer (43_envelope.md R178). -/
  payloadFits : s.flag .eHaspl = true → s.ePoff.toNat = s.cfg.payloadOffset ∧
    s.eLen.toNat = s.ePlen.toNat + s.cfg.lenBias ∧ s.ePoff.toNat + s.ePlen.toNat ≤ s.ilen.toNat ∧ 7 ≤ s.eNent.toNat
  /-- What a valid envelope parse promises (43_envelope.md R183). -/
  envelopeValid : s.flag .eValid = true → s.flag .eHaspl = true ∧ s.eStart = startDelim ∧ s.eEnd = endDelim ∧
    s.eNent.toNat = 9 ∧ s.eToff.toNat = s.cfg.payloadOffset + 2 + s.ePlen.toNat ∧
    s.eToff.toNat + s.eTlen.toNat = s.ilen.toNat
  /-- `M_NREG` counts elements of `M_REG` (44_modbus.md R199). -/
  registersFit : s.mNreg.toNat ≤ s.cfg.catalogRegs
  /-- What a valid Modbus parse promises (44_modbus.md R204). -/
  modbusValid : s.flag .mValid = true → s.mState.toNat = 7 ∧ s.mToff.toNat + s.mTlen.toNat = s.mSlen.toNat ∧
    s.mBase.toNat + s.mSlen.toNat ≤ s.ilen.toNat

/-- A safe step: the machine goes on. -/
def goesOn (o : Host.Outcome State Fault Refusal) : Prop := ∃ t, o = .next t

/-- Instructions one after the other, each in the state the one before it left (20_memory.md R70). -/
def runSeq : List Instr → State → Host.Outcome State Fault Refusal
  | [], s => .next s
  | i :: rest, s => afterNext (exec i s) (runSeq rest)

/-- The input buffer holds exactly this byte string. -/
def State.holdsInput (s : State) (bytes : List Byte) : Prop :=
  s.ilen.toNat = bytes.length ∧ Mem.readRange s.ibuf 0 bytes.length = bytes

/-- Where the span that `src` selects begins in `IBUF` (44_modbus.md R191). -/
def State.spanBase (s : State) (src : Byte) : Half := if src = 0 then s.ePoff else 0

/-- How long the span that `src` selects is (R191). -/
def State.spanLength (s : State) (src : Byte) : Half := if src = 0 then s.ePlen else s.ilen

/-- `MP.CMD src` and `MP.RSP src` have a span, and the bytes of that span are these (R191). -/
def State.holdsSpan (s : State) (src : Byte) (bytes : List Byte) : Prop :=
  ((src = 0 ∧ s.flag .eHaspl = true) ∨ src = 1) ∧
  (s.spanLength src).toNat = bytes.length ∧ (s.spanBase src).toNat + bytes.length ≤ s.ilen.toNat ∧
  Mem.readRange s.ibuf (s.spanBase src).toNat bytes.length = bytes

/-- The state that an error raised before anything was written leaves (60_exceptions.md R226, R233). -/
def State.failed (s : State) (e : ErrorName) (pos ent : Nat) : State :=
  { s with err := e.code, errPos := BitVec.ofNat 16 pos, errEnt := BitVec.ofNat 16 ent, outcome := some (.error e) }

/-- The five wire-format rows. -/
def isWireRow : Instr → Bool
  | .wireEnvelopeFrame .. | .wireModbusRequest .. | .wireModbusResponseAck .. => true
  | .wireModbusResponseEmptyRead .. | .wireModbusResponseRead .. => true
  | _ => false

/-- The parser a wire row is handed to (70_reset_and_hazards.md R263, 44_modbus.md R191). -/
def parserOf : Instr → Instr
  | .wireEnvelopeFrame .. => .epRun
  | .wireModbusRequest .. => .mpCmd 1
  | _ => .mpRsp 1

/-- `i` is `EP.RUN`, or a wire row that runs it (log entry 7). -/
abbrev runsEpRun (i : Instr) : Prop := i = .epRun ∨ (isWireRow i = true ∧ parserOf i = .epRun)

/-- `i` is an `MP.CMD`, or a wire row that runs one (log entry 7). -/
abbrev runsMpCmd (i : Instr) : Prop := (∃ a, i = .mpCmd a) ∨ (isWireRow i = true ∧ parserOf i = .mpCmd 1)

/-- `i` is an `MP.RSP`, or a wire row that runs one (log entry 7). -/
abbrev runsMpRsp (i : Instr) : Prop := (∃ a, i = .mpRsp a) ∨ (isWireRow i = true ∧ parserOf i = .mpRsp 1)

/-- `i` is `IB.CLR` or an `IB.LOAD`, or a wire row, which runs both (log entry 7). -/
abbrev loadsInput (i : Instr) : Prop := i = .ibClr ∨ (∃ d, i = .ibLoad d) ∨ isWireRow i = true

end Sys2Proof.Machine
end

