-- ==== Sys2Proof/Certificates/Slice0/Obligations.lean ====
section
/-! DEFINITION. The statements for the provers. -/

open Sys2Proof Sys2Proof.Machine

/-! ## Reset and the system commands -/

/-- R261: every register, the latch and the readable arrays after reset. -/
def Obligations.ResetStateHoldsTheResetTable : Prop :=
  State.reset.cnt = 0x0000 ∧ State.reset.ctrl = 0x1045 ∧ State.reset.crc = 0xFFFF ∧ State.reset.sum = 0x00 ∧
  (∀ f, State.reset.flag f = false) ∧ State.reset.status = 0x00 ∧
  State.reset.err = 0 ∧ State.reset.errPos = 0 ∧ State.reset.errEnt = 0 ∧
  State.reset.ilen = 0 ∧ State.reset.olen = 0 ∧ State.reset.eState = 0 ∧ State.reset.mState = 0 ∧
  State.reset.eStart = 0 ∧ State.reset.eLen = 0 ∧ State.reset.eCtrl = 0 ∧ State.reset.eCnt = 0 ∧
  State.reset.eSer = 0 ∧ State.reset.ePoff = 0 ∧ State.reset.ePlen = 0 ∧ State.reset.eChk = 0 ∧
  State.reset.eEnd = 0 ∧ State.reset.eToff = 0 ∧ State.reset.eTlen = 0 ∧ State.reset.eNent = 0 ∧
  State.reset.mFc = 0 ∧ State.reset.mLen = 0 ∧ State.reset.mStart = 0 ∧ State.reset.mCount = 0 ∧
  State.reset.mCrc = 0 ∧ State.reset.mNreg = 0 ∧ State.reset.mToff = 0 ∧ State.reset.mTlen = 0 ∧
  State.reset.mNent = 0 ∧ State.reset.mBase = 0 ∧ State.reset.mSlen = 0 ∧ State.reset.rdata = 0x00000000 ∧
  (∀ i, Mem.read State.reset.pbuf i = 0x00) ∧ (∀ i, Mem.read State.reset.eData i = 0x00) ∧
  (∀ i, Mem.read State.reset.mReg i = 0x0000)

/-- R151, R260: from any state, `RESET` and the reset input leave the state of R261; only what is no state of the FCB
(the parameters, what the host has queued, the outcome port) is not part of it (log entry 14). -/
def Obligations.ResetCommandAndResetInputAgree : Prop :=
  ∀ (s : State) (queue : List HostInput),
    exec .reset s = .next { State.reset with cfg := s.cfg, pending := s.pending, outcome := some .ok } ∧
    step (s.withPending (.resetInput :: queue)) = .next { State.reset with cfg := s.cfg, pending := queue } ∧
    step (s.withPending (.command [0x01] :: queue)) =
      .next { State.reset with cfg := s.cfg, pending := queue, outcome := some .ok }

/-- R150, R152: `NOP` changes no state; `CLRERR` zeroes the record and nothing else. (The outcome port, the model's own
field, shows `ok`: log entry 4.) -/
def Obligations.NopAndClrerrChangeNothingElse : Prop :=
  decode [0x00] = .ok .nop ∧ decode [0x02] = .ok .clrerr ∧
  ∀ s : State,
    exec .nop s = .next { s with outcome := some .ok } ∧
    exec .clrerr s = .next { s with err := 0, errPos := 0, errEnt := 0, outcome := some .ok }

/-- R153: `RD` of each of the 35 numbers of R21 puts that register, zero-extended, into `RDATA` and changes nothing else;
`RD` of any other number is `IllegalCommand(0, 0x03)`. -/
def Obligations.RdReturnsEachScalarRegister : Prop :=
  (∀ a : Byte, decode [0x03, a] = .ok (.rd a)) ∧
  ∀ s : State,
    let reads (a : Byte) (v : Word) : Prop := exec (.rd a) s = .next { s with rdata := v, outcome := some .ok }
    reads 0x00 (s.status.setWidth 32) ∧ reads 0x01 (s.err.setWidth 32) ∧ reads 0x02 (s.errEnt.setWidth 32) ∧
    reads 0x03 (s.errPos.setWidth 32) ∧ reads 0x04 (s.crc.setWidth 32) ∧ reads 0x05 (s.sum.setWidth 32) ∧
    reads 0x06 (s.cnt.setWidth 32) ∧ reads 0x07 (s.ctrl.setWidth 32) ∧ reads 0x08 (s.ilen.setWidth 32) ∧
    reads 0x09 (s.olen.setWidth 32) ∧ reads 0x0A (s.eState.setWidth 32) ∧ reads 0x0B (s.mState.setWidth 32) ∧
    reads 0x10 (s.eStart.setWidth 32) ∧ reads 0x11 (s.eLen.setWidth 32) ∧ reads 0x12 (s.eCtrl.setWidth 32) ∧
    reads 0x13 (s.eCnt.setWidth 32) ∧ reads 0x14 s.eSer ∧ reads 0x15 (s.ePoff.setWidth 32) ∧
    reads 0x16 (s.ePlen.setWidth 32) ∧ reads 0x17 (s.eChk.setWidth 32) ∧ reads 0x18 (s.eEnd.setWidth 32) ∧
    reads 0x19 (s.eToff.setWidth 32) ∧ reads 0x1A (s.eTlen.setWidth 32) ∧ reads 0x1B (s.eNent.setWidth 32) ∧
    reads 0x20 (s.mFc.setWidth 32) ∧ reads 0x21 (s.mLen.setWidth 32) ∧ reads 0x22 (s.mStart.setWidth 32) ∧
    reads 0x23 (s.mCount.setWidth 32) ∧ reads 0x24 (s.mCrc.setWidth 32) ∧ reads 0x25 (s.mNreg.setWidth 32) ∧
    reads 0x26 (s.mToff.setWidth 32) ∧ reads 0x27 (s.mTlen.setWidth 32) ∧ reads 0x28 (s.mNent.setWidth 32) ∧
    reads 0x29 (s.mBase.setWidth 32) ∧ reads 0x2A (s.mSlen.setWidth 32) ∧
    (∀ a : Byte, (0x0C ≤ a.toNat ∧ a.toNat ≤ 0x0F) ∨ (0x1C ≤ a.toNat ∧ a.toNat ≤ 0x1F) ∨ 0x2B ≤ a.toNat →
      exec (.rd a) s = .next (s.failed .illegalCommand 0 0x03))

/-- R22: `RD` or `WR` of a number that R21 does not list raises `IllegalCommand` and changes nothing else. -/
def Obligations.UnimplementedNumbersAreIllegal : Prop :=
  ∀ (s : State) (a : Byte) (v : Word),
    (0x0C ≤ a.toNat ∧ a.toNat ≤ 0x0F) ∨ (0x1C ≤ a.toNat ∧ a.toNat ≤ 0x1F) ∨ 0x2B ≤ a.toNat →
    exec (.rd a) s = .next (s.failed .illegalCommand 0 0x03) ∧
    exec (.wr a v) s = .next (s.failed .illegalCommand 0 0x04)

/-- R154: `WR` sets `CNT` or `CTRL` to a value that fits 16 bits; a value that does not fit is `OutOfRange`;
any other register is `IllegalCommand`, whatever the value. Nothing else changes. -/
def Obligations.WrWritesOnlyCounterAndControl : Prop :=
  (∀ r a b c d : Byte, decode [0x04, r, a, b, c, d] = .ok (.wr r (a ++ b ++ c ++ d))) ∧
  ∀ (s : State) (r : Byte) (v : Word),
    (v.toNat ≤ 0xFFFF →
      exec (.wr 0x06 v) s = .next { s with cnt := BitVec.ofNat 16 v.toNat, outcome := some .ok } ∧
      exec (.wr 0x07 v) s = .next { s with ctrl := BitVec.ofNat 16 v.toNat, outcome := some .ok }) ∧
    (0xFFFF < v.toNat →
      exec (.wr 0x06 v) s = .next (s.failed .outOfRange 0 0x06) ∧
      exec (.wr 0x07 v) s = .next (s.failed .outOfRange 0 0x07)) ∧
    (r ≠ 0x06 → r ≠ 0x07 → exec (.wr r v) s = .next (s.failed .illegalCommand 0 0x04))

/-! ## The input buffer and the read-out commands -/

/-- R155: `IB.CLR` empties the buffer and clears `E_VALID`, `E_HASPL`, `M_VALID` (bits 0, 1, 3); no byte of any array and
no other register changes. -/
def Obligations.IbClrEmptiesTheInput : Prop :=
  decode [0x08] = .ok .ibClr ∧
  ∀ s : State, exec .ibClr s = .next { s with ilen := 0, status := s.status &&& 0xF4, outcome := some .ok }

/-- R156: `IB.LOAD` of up to 255 bytes. Data that fits is appended, the first byte at the lowest index; `ILEN` grows by the
count; the three flags are cleared; every byte of `IBUF` outside the stored ones, and everything else, is as before. Data
that does not fit is rejected whole: no prefix of it is stored, `ILEN` and the flags are unchanged. -/
def Obligations.IbLoadAppendsWholeOrNotAtAll : Prop :=
  (∀ (n : Byte) (d : List Byte), d.length = n.toNat → decode (0x09 :: n :: d) = .ok (.ibLoad d)) ∧
  (∀ (s : State) (d : List Byte), Mem.wf s.ibuf = true → s.cfg.ibufMax ≤ 65535 →
    s.ilen.toNat + d.length ≤ s.cfg.ibufMax →
    ∃ t, exec (.ibLoad d) s = .next t ∧ t.ilen.toNat = s.ilen.toNat + d.length ∧
      (∀ (i : Nat) (h : i < d.length), Mem.read t.ibuf (s.ilen.toNat + i) = d[i]) ∧
      (∀ a, a < s.ilen.toNat ∨ s.ilen.toNat + d.length ≤ a → Mem.read t.ibuf a = Mem.read s.ibuf a) ∧
      t = { s with ibuf := t.ibuf, ilen := t.ilen, status := s.status &&& 0xF4, outcome := some .ok }) ∧
  (∀ (s : State) (d : List Byte), s.cfg.ibufMax < s.ilen.toNat + d.length →
    exec (.ibLoad d) s = .next (s.failed .outOfRange s.ilen.toNat 0))

/-- R157 to R160: in range, a read-out command puts the byte, zero-extended, into `RDATA`, and nothing else changes; out
of range it raises and `RDATA` is unchanged. -/
def Obligations.ReadOutCommandsFollowTheirRules : Prop :=
  (∀ a b : Byte, decode [0x0A, a, b] = .ok (.rdi (a ++ b)) ∧ decode [0x0B, a, b] = .ok (.rdo (a ++ b)) ∧
    decode [0x0C, a] = .ok (.rdp a) ∧ decode [0x0D, a] = .ok (.rdd a)) ∧
  ∀ s : State,
    (∀ a : Half, exec (.rdi a) s =
      if a.toNat < s.ilen.toNat then
        .next { s with rdata := (Mem.read s.ibuf a.toNat).setWidth 32, outcome := some .ok }
      else .next (s.failed .truncatedInput a.toNat 0)) ∧
    (∀ a : Half, exec (.rdo a) s =
      if a.toNat < s.olen.toNat then
        .next { s with rdata := (Mem.read s.obuf a.toNat).setWidth 32, outcome := some .ok }
      else .next (s.failed .truncatedInput a.toNat 0)) ∧
    (∀ a : Byte, exec (.rdp a) s =
      if s.flag .pbValid = true ∧ a.toNat < 8 then
        .next { s with rdata := (Mem.read s.pbuf a.toNat).setWidth 32, outcome := some .ok }
      else .next (s.failed .truncatedInput a.toNat 0)) ∧
    (∀ a : Byte, s.cfg.dataPattern.length = 15 → exec (.rdd a) s =
      if a.toNat < 15 then
        .next { s with rdata := (Mem.read s.eData a.toNat).setWidth 32, outcome := some .ok }
      else .next (s.failed .illegalCommand 0 0x0D))

/-! ## Byte order and the checksum units -/

/-- R11: the byte-order functions as sums of powers of 256 and as bit fields, and each pair inverse to the other. -/
def Obligations.ByteOrderFunctionsAreInverse : Prop :=
  (∀ a b : Byte, (ofBE16 [a, b]).toNat = a.toNat * 256 + b.toNat ∧ (ofLE16 [a, b]).toNat = b.toNat * 256 + a.toNat ∧
    be16 (ofBE16 [a, b]) = [a, b] ∧ le16 (ofLE16 [a, b]) = [a, b]) ∧
  (∀ a b c d : Byte,
    (ofLE32 [a, b, c, d]).toNat = d.toNat * 2 ^ 24 + c.toNat * 2 ^ 16 + b.toNat * 2 ^ 8 + a.toNat ∧
    le32 (ofLE32 [a, b, c, d]) = [a, b, c, d]) ∧
  (∀ v : Half, ofBE16 (be16 v) = v ∧ ofLE16 (le16 v) = v) ∧ (∀ v : Word, ofLE32 (le32 v) = v) ∧
  (∀ v : Half, be16 v = [v.extractLsb' 8 8, v.extractLsb' 0 8] ∧ le16 v = [v.extractLsb' 0 8, v.extractLsb' 8 8]) ∧
  (∀ (v : Word) (k : Nat) (h : k < (le32 v).length), (le32 v)[k] = v.extractLsb' (8 * k) 8)

/-- R131, R133, R134: `CRC.INIT` stores 0xFFFF; `CRC.UPD a` enters the byte at the low end and shifts eight times, with
0xA001 xored in after a shift that dropped a 1. Nothing else changes. (0xFFFF, 0xA001 and the bit order
are PRESUMED: log entry 9.) -/
def Obligations.CrcInitAndUpdateFollowTheRule : Prop :=
  ∀ (s : State) (a : Byte),
    let shift (c : Half) : Half := if c.getLsbD 0 = true then (c >>> 1) ^^^ 0xA001 else c >>> 1
    exec .crcInit s = .next { s with crc := 0xFFFF, outcome := some .ok } ∧
    exec (.crcUpd a) s = .next { s with
      crc := shift (shift (shift (shift (shift (shift (shift (shift (s.crc ^^^ a.setWidth 16))))))))
      outcome := some .ok }

/-- R135, R136: in range, `CRC.BUF a, b` leaves exactly what `CRC.INIT` and then one `CRC.UPD` for each byte of the range
in ascending order leave. (The polynomial: log entry 9.) -/
def Obligations.CrcBufAgreesWithByteSerialCrc : Prop :=
  ∀ (s : State) (a b : Half), a.toNat + b.toNat ≤ s.ilen.toNat →
    exec (.crcBuf a b) s = runSeq (.crcInit :: (Mem.readRange s.ibuf a.toNat b.toNat).map .crcUpd) s ∧
    exec (.crcBuf a b) s =
      .next { s with crc := crc16 (Mem.readRange s.ibuf a.toNat b.toNat), outcome := some .ok }

/-- R135: a range that runs past the input is `TruncatedInput(a, 0)`, with `CRC` unchanged; the sum of offset and length
does not wrap. -/
def Obligations.CrcBufRangePastTheEndRaises : Prop :=
  ∀ (s : State) (a b : Half), s.ilen.toNat < a.toNat + b.toNat →
    exec (.crcBuf a b) s = .next (s.failed .truncatedInput a.toNat 0)

/-- R137: the CRC of a string followed by its own CRC, low byte first, is 0. (The polynomial: log entry 9.) -/
def Obligations.CrcOfMessageWithItsCrcIsZero : Prop :=
  ∀ bytes : List Byte, crc16 (bytes ++ le16 (crc16 bytes)) = 0x0000

/-- R138: for a fixed byte `crc_step` is a bijection of the register, and the byte may be xored in beforehand. (The
polynomial: log entry 9.) -/
def Obligations.CrcStepIsABijection : Prop :=
  ∀ b : Byte, (∀ c d : Half, crcStep c b = crcStep d b → c = d) ∧ (∀ d : Half, ∃ c, crcStep c b = d) ∧
    (∀ c : Half, crcStep c b = crcStep (c ^^^ b.setWidth 16) 0)

/-- R140: `sum8` is the sum of the bytes modulo 256, whatever their order. -/
def Obligations.Sum8IsTheTotalModulo256 : Prop :=
  ∀ bytes : List Byte, (sum8 bytes).toNat = (bytes.map BitVec.toNat).sum % 256 ∧
    (∀ other : List Byte, bytes.Perm other → sum8 other = sum8 bytes)

/-- R146: the sum over a range is the sum of the sums of its parts; changing one byte changes the sum. -/
def Obligations.SingleByteErrorChangesTheSum : Prop :=
  ∀ (left right : List Byte) (x y : Byte),
    sum8 (left ++ x :: right) = sum8 left + x + sum8 right ∧
    (sum8 (left ++ x :: right) = sum8 (left ++ y :: right) → x = y)

/-- R142, R143: `SUM.INIT` stores 0; `SUM.UPD a` adds modulo 256. Nothing else changes. -/
def Obligations.SumInitAndUpdateFollowTheRule : Prop :=
  decode [0x18] = .ok .sumInit ∧ (∀ a : Byte, decode [0x19, a] = .ok (.sumUpd a)) ∧
  ∀ (s : State) (a : Byte),
    exec .sumInit s = .next { s with sum := 0x00, outcome := some .ok } ∧
    exec (.sumUpd a) s =
      .next { s with sum := BitVec.ofNat 8 ((s.sum.toNat + a.toNat) % 256), outcome := some .ok }

/-- R144, R145: in range, `SUM.BUF a, b` leaves exactly what `SUM.INIT` and then one `SUM.UPD` for each byte of the range,
in any order, leave; a range past the input is `TruncatedInput(a, 0)`, with `SUM` unchanged and no wrap of `a + b`. -/
def Obligations.SumBufAgreesWithByteSerialSum : Prop :=
  (∀ a b c d : Byte, decode [0x1A, a, b, c, d] = .ok (.sumBuf (a ++ b) (c ++ d))) ∧
  ∀ (s : State) (a b : Half),
    (s.ilen.toNat < a.toNat + b.toNat → exec (.sumBuf a b) s = .next (s.failed .truncatedInput a.toNat 0)) ∧
    (a.toNat + b.toNat ≤ s.ilen.toNat →
      exec (.sumBuf a b) s =
        .next { s with sum := sum8 (Mem.readRange s.ibuf a.toNat b.toNat), outcome := some .ok } ∧
      ∀ bytes : List Byte, (Mem.readRange s.ibuf a.toNat b.toNat).Perm bytes →
        runSeq (.sumInit :: bytes.map .sumUpd) s = exec (.sumBuf a b) s)

/-! ## The envelope parser and assembler -/

/-- R38, R171: `EP.RUN` always ends; it writes `E_STATE`, the `E_*` registers, `E_DATA`, `SUM`, three flags and the error
record, and nothing else. -/
def Obligations.EpRunEndsAndKeepsTheRest : Prop :=
  ∀ s : State, ∃ t, exec .epRun s = .next t ∧
    t = { s with
      status := t.status, err := t.err, errPos := t.errPos, errEnt := t.errEnt, sum := t.sum, eState := t.eState
      eStart := t.eStart, eLen := t.eLen, eCtrl := t.eCtrl, eCnt := t.eCnt, eSer := t.eSer, ePoff := t.ePoff
      ePlen := t.ePlen, eChk := t.eChk, eEnd := t.eEnd, eToff := t.eToff, eTlen := t.eTlen, eNent := t.eNent
      eData := t.eData, outcome := t.outcome } ∧
    t.status &&& 0xF8 = s.status &&& 0xF8

/-- R170 to R181: on a frame whose length field is `15 + N`, with the two delimiters, every field is extracted in its byte
order; the parse is valid; `CHK_BAD`, the error record and the outcome say whether the checksum byte is the sum of the
bytes between the start delimiter and it; the bytes after the end delimiter are the trailing span. -/
def Obligations.EpRunExtractsEveryField : Prop :=
  ∀ (s : State) (len ctrl cnt : Half) (ser : Word) (data payload trailing : List Byte) (chk : Byte),
    s.cfg.dataPattern.length = 15 → data.length = 15 → len.toNat = 15 + payload.length →
    s.holdsInput (0xA5 :: (le16 len ++ be16 ctrl ++ be16 cnt ++ le32 ser ++ data ++ payload ++ [chk, 0x15] ++ trailing)) →
    let check := sum8 (le16 len ++ be16 ctrl ++ be16 cnt ++ le32 ser ++ data ++ payload)
    ∃ t, exec .epRun s = .next t ∧
      (∀ (i : Nat) (h : i < data.length), Mem.read t.eData i = data[i]) ∧ (∀ i, 15 ≤ i → Mem.read t.eData i = 0) ∧
      t = { s with
        status := (s.status &&& 0xF8) ||| (if check = chk then 0x03 else 0x07)
        err := if check = chk then s.err else 3
        errPos := if check = chk then s.errPos else BitVec.ofNat 16 (26 + payload.length)
        errEnt := if check = chk then s.errEnt else 7
        sum := check, eState := 10, eStart := 0xA5, eLen := len, eCtrl := ctrl, eCnt := cnt, eSer := ser
        ePoff := 26, ePlen := BitVec.ofNat 16 payload.length, eChk := chk, eEnd := 0x15
        eToff := BitVec.ofNat 16 (28 + payload.length), eTlen := BitVec.ofNat 16 trailing.length, eNent := 9
        eData := t.eData, outcome := some (if check = chk then .ok else .okFlagged) }

/-- R182, R222, R234: a buffer that begins with 0xA5 and ends inside the header or the data field raises `TruncatedInput`
with the offset and index of the first entry that is not there whole; the entries before it are decoded, it and the
later ones read 0. -/
def Obligations.EpRunTruncatedInTheHeader : Prop :=
  ∀ s : State, s.cfg.dataPattern.length = 15 → s.ilen.toNat < 26 → (0 < s.ilen.toNat → Mem.read s.ibuf 0 = 0xA5) →
    let n := s.ilen.toNat
    let k := if n < 1 then 0 else if n < 3 then 1 else if n < 5 then 2 else if n < 7 then 3 else if n < 11 then 4 else 5
    let pos := if n < 1 then 0 else if n < 3 then 1 else if n < 5 then 3 else if n < 7 then 5 else if n < 11 then 7 else 11
    ∃ t, exec .epRun s = .next t ∧ (∀ i, Mem.read t.eData i = 0) ∧
      t = { s with
        status := s.status &&& 0xF8
        err := 1, errPos := BitVec.ofNat 16 pos, errEnt := BitVec.ofNat 16 k
        eState := BitVec.ofNat 8 (k + 1), eNent := BitVec.ofNat 8 k
        eStart := if 0 < k then 0xA5 else 0
        eLen := if 1 < k then ofLE16 (Mem.readRange s.ibuf 1 2) else 0
        eCtrl := if 2 < k then ofBE16 (Mem.readRange s.ibuf 3 2) else 0
        eCnt := if 3 < k then ofBE16 (Mem.readRange s.ibuf 5 2) else 0
        eSer := if 4 < k then ofLE32 (Mem.readRange s.ibuf 7 4) else 0
        ePoff := 0, ePlen := 0, eChk := 0, eEnd := 0, eToff := 0, eTlen := 0
        eData := t.eData, outcome := some (.error .truncatedInput) }

/-- R178, R179, R180, R222, R225, R234, R235: a buffer that holds the start delimiter and the next five entries whole, with
length field `len`. `len` below 15 is `MalformedSchema(26, 6)`; a payload that is not there whole is
`TruncatedInput(26, 6)`; a missing checksum byte or end byte is `TruncatedInput` at its offset, with the payload span kept
and `E_HASPL = 1`; where the checksum byte is there, `E_CHK`, `SUM` and `CHK_BAD` are written and a mismatch shows in
`CHK_BAD` only. Every entry before the failing one keeps its decoded value, it and the later ones read 0, `E_VALID` is 0,
and nothing else changes. -/
def Obligations.EpRunStopsAtThePayloadOrTheTail : Prop :=
  ∀ (s : State) (len ctrl cnt : Half) (ser : Word) (data rest : List Byte),
    s.cfg.dataPattern.length = 15 → data.length = 15 →
    s.holdsInput (0xA5 :: (le16 len ++ be16 ctrl ++ be16 cnt ++ le32 ser ++ data ++ rest)) →
    let stops (e : ErrorName) (pos k : Nat) (flags : Byte) (poff plen : Half) (chk sum : Byte) : Prop :=
      ∃ t, exec .epRun s = .next t ∧
        (∀ (i : Nat) (h : i < data.length), Mem.read t.eData i = data[i]) ∧ (∀ i, 15 ≤ i → Mem.read t.eData i = 0) ∧
        t = { s with
          status := (s.status &&& 0xF8) ||| flags
          err := e.code, errPos := BitVec.ofNat 16 pos, errEnt := BitVec.ofNat 16 k
          sum := sum, eState := BitVec.ofNat 8 (k + 1), eNent := BitVec.ofNat 8 k
          eStart := 0xA5, eLen := len, eCtrl := ctrl, eCnt := cnt, eSer := ser, ePoff := poff, ePlen := plen
          eChk := chk, eEnd := 0, eToff := 0, eTlen := 0, eData := t.eData, outcome := some (.error e) }
    (len.toNat < 15 → stops .malformedSchema 26 6 0x00 0 0 0x00 s.sum) ∧
    ∀ n, len.toNat = 15 + n →
      (rest.length < n → stops .truncatedInput 26 6 0x00 0 0 0x00 s.sum) ∧
      (rest.length = n → stops .truncatedInput (26 + n) 7 0x02 26 (BitVec.ofNat 16 n) 0x00 s.sum) ∧
      (∀ (payload : List Byte) (chk : Byte), payload.length = n → rest = payload ++ [chk] →
        let check := sum8 (le16 len ++ be16 ctrl ++ be16 cnt ++ le32 ser ++ data ++ payload)
        stops .truncatedInput (27 + n) 8 (if check = chk then 0x02 else 0x06) 26 (BitVec.ofNat 16 n) chk check)

/-- R172, R179, R180, R227, R234, R235: a wrong start byte is `BadDelimiter(0, 0)` with the byte in `E_START` and nothing
decoded. A wrong end byte is `BadDelimiter(27 + N, 8)` with the byte in `E_END`; the eight entries before it keep their
decoded values, `SUM` holds the computed checksum, `CHK_BAD` alone says whether it is the checksum byte, the trailing span
stays 0 and `E_VALID = 0`. Nothing else changes. -/
def Obligations.WrongDelimitersAreFatal : Prop :=
  (∀ s : State, 0 < s.ilen.toNat → Mem.read s.ibuf 0 ≠ 0xA5 →
    ∃ t, exec .epRun s = .next t ∧ (∀ i, Mem.read t.eData i = 0) ∧
      t = { s with
        status := s.status &&& 0xF8, err := 5, errPos := 0, errEnt := 0, eState := 1, eNent := 0
        eStart := Mem.read s.ibuf 0, eLen := 0, eCtrl := 0, eCnt := 0, eSer := 0, ePoff := 0, ePlen := 0, eChk := 0
        eEnd := 0, eToff := 0, eTlen := 0, eData := t.eData, outcome := some (.error .badDelimiter) }) ∧
  (∀ (s : State) (len ctrl cnt : Half) (ser : Word) (data payload trailing : List Byte) (chk fin : Byte),
    s.cfg.dataPattern.length = 15 → data.length = 15 → len.toNat = 15 + payload.length → fin ≠ 0x15 →
    s.holdsInput (0xA5 :: (le16 len ++ be16 ctrl ++ be16 cnt ++ le32 ser ++ data ++ payload ++ [chk, fin] ++ trailing)) →
    let check := sum8 (le16 len ++ be16 ctrl ++ be16 cnt ++ le32 ser ++ data ++ payload)
    ∃ t, exec .epRun s = .next t ∧
      (∀ (i : Nat) (h : i < data.length), Mem.read t.eData i = data[i]) ∧ (∀ i, 15 ≤ i → Mem.read t.eData i = 0) ∧
      t = { s with
        status := (s.status &&& 0xF8) ||| (if check = chk then 0x02 else 0x06)
        err := 5, errPos := BitVec.ofNat 16 (27 + payload.length), errEnt := 8
        sum := check, eState := 9, eNent := 8, eStart := 0xA5, eLen := len, eCtrl := ctrl, eCnt := cnt, eSer := ser
        ePoff := 26, ePlen := BitVec.ofNat 16 payload.length, eChk := chk, eEnd := fin, eToff := 0, eTlen := 0
        eData := t.eData, outcome := some (.error .badDelimiter) })

/-- R183: what holds after an `EP.RUN` that leaves `E_VALID = 1`. -/
def Obligations.ValidEnvelopeParsePromises : Prop :=
  ∀ s t : State, s.cfg.dataPattern.length = 15 → exec .epRun s = .next t → t.flag .eValid = true →
    28 + t.ePlen.toNat ≤ t.ilen.toNat ∧ t.eLen.toNat = t.ePlen.toNat + 15 ∧ t.ePoff = 26 ∧ t.eStart = 0xA5 ∧
    t.eEnd = 0x15 ∧ t.eNent = 9 ∧ t.eState = 10 ∧ t.eToff.toNat + t.eTlen.toNat = t.ilen.toNat ∧
    t.sum = sum8 (Mem.readRange t.ibuf 1 (25 + t.ePlen.toNat)) ∧ (t.flag .chkBad = true ↔ t.sum ≠ t.eChk)

/-- R171: a second `EP.RUN` on an unchanged input buffer gives exactly the same state as the first. -/
def Obligations.EpRunIsIdempotent : Prop :=
  ∀ s t : State, exec .epRun s = .next t → exec .epRun t = .next t

/-- R184, R185, R186, R141: the 36 bytes of the frame, its checksum over offsets 1 to 33, `OLEN`, `SUM`, `OB_VALID`, and the
counter advanced modulo 65536 after its old value went into the frame; no other byte of `OBUF` and nothing else
changes. With no request built, `ENV.BUILD` raises `SequenceError` and changes nothing else, `CNT` included. -/
def Obligations.EnvBuildAssemblesTheFrame : Prop :=
  (∀ a b c d : Byte, decode [0x21, a, b, c, d] = .ok (.envBuild (a ++ b ++ c ++ d))) ∧
  (∀ (s : State) (a : Word), s.flag .pbValid = false → exec (.envBuild a) s = .next (s.failed .sequenceError 0 0)) ∧
  ∀ (s : State) (a : Word), s.flag .pbValid = true → Mem.wf s.obuf = true →
    s.cfg.dataPattern = [0x02, 0, 0, 0, 0, 0, 0, 0, 0, 0, 0, 0, 0, 0, 0] →
    let body := le16 23 ++ be16 s.ctrl ++ be16 s.cnt ++ le32 a ++ [0x02, 0, 0, 0, 0, 0, 0, 0, 0, 0, 0, 0, 0, 0, 0] ++
      Mem.readRange s.pbuf 0 8
    ∃ t, exec (.envBuild a) s = .next t ∧ Mem.readRange t.obuf 0 36 = 0xA5 :: (body ++ [sum8 body, 0x15]) ∧
      (∀ i, 36 ≤ i → Mem.read t.obuf i = Mem.read s.obuf i) ∧ t.cnt.toNat = (s.cnt.toNat + 1) % 65536 ∧
      t = { s with
        obuf := t.obuf, olen := 36, sum := sum8 body, cnt := t.cnt, status := s.status ||| 0x40
        outcome := some .ok }

/-! ## The Modbus request assembler, the parsers and the register views -/

/-- R190: the eight bytes of the request, its CRC low byte first, the two flags, and `OLEN = 0`; no other byte of `PBUF`
and nothing else changes. -/
def Obligations.MbReqAssemblesTheRequest : Prop :=
  (∀ a b c d e f : Byte, decode [0x30, a, b, c, d, e, f] = .ok (.mbReq (a ++ b) (c ++ d) (e ++ f))) ∧
  ∀ (s : State) (a b c : Half), Mem.wf s.pbuf = true →
    let body := be16 a ++ be16 b ++ be16 c
    ∃ t, exec (.mbReq a b c) s = .next t ∧ Mem.readRange t.pbuf 0 8 = body ++ le16 (crc16 body) ∧
      (∀ i, 8 ≤ i → Mem.read t.pbuf i = Mem.read s.pbuf i) ∧
      t = { s with
        pbuf := t.pbuf, crc := crc16 body, olen := 0, status := (s.status ||| 0x20) &&& 0xBF, outcome := some .ok }

/-- R191, R193, R202: a span that begins with a request has its four fields extracted; `CRC_BAD`, the record and the
outcome say whether the CRC field is the CRC of the six bytes before it; what follows it is the trailing span. -/
def Obligations.MpCmdExtractsTheRequest : Prop :=
  ∀ (s : State) (src : Byte) (fc start count crc : Half) (trailing : List Byte),
    s.holdsSpan src (be16 fc ++ be16 start ++ be16 count ++ le16 crc ++ trailing) →
    let check := crc16 (be16 fc ++ be16 start ++ be16 count)
    exec (.mpCmd src) s = .next { s with
      status := (s.status &&& 0x67) ||| (if check = crc then 0x08 else 0x18)
      err := if check = crc then s.err else 3
      errPos := if check = crc then s.errPos else 6
      errEnt := if check = crc then s.errEnt else 3
      crc := check, mState := 7, mFc := fc, mLen := 0, mStart := start, mCount := count, mCrc := crc, mNreg := 0
      mToff := 8, mTlen := BitVec.ofNat 16 trailing.length, mNent := 4
      mBase := s.spanBase src, mSlen := s.spanLength src, mReg := []
      outcome := some (if check = crc then .ok else .okFlagged) }

/-- R193, R195, R222: a span of fewer than 8 bytes raises `TruncatedInput` at the first entry that does not fit, whose
state `M_STATE` keeps; the entries before it keep their values and `M_VALID` is 0. -/
def Obligations.MpCmdTruncated : Prop :=
  ∀ (s : State) (src : Byte) (bytes : List Byte), s.holdsSpan src bytes → bytes.length < 8 →
    let k := bytes.length / 2
    exec (.mpCmd src) s = .next { s with
      status := s.status &&& 0x67
      err := 1, errPos := BitVec.ofNat 16 (2 * k), errEnt := BitVec.ofNat 16 k
      mState := if k = 0 then 1 else if k = 1 then 5 else if k = 2 then 6 else 4
      mFc := if 0 < k then ofBE16 bytes else 0
      mLen := 0
      mStart := if 1 < k then ofBE16 (bytes.drop 2) else 0
      mCount := if 2 < k then ofBE16 (bytes.drop 4) else 0
      mCrc := 0, mNreg := 0, mToff := 0, mTlen := 0, mNent := BitVec.ofNat 8 k
      mBase := s.spanBase src, mSlen := s.spanLength src, mReg := []
      outcome := some (.error .truncatedInput) }

/-- R229: `ENV.BUILD` with no request built, and `MP.CMD 0` and `MP.RSP 0` with no payload span, raise
`SequenceError(0, 0)`; nothing else changes: no clearing, no counter increment. -/
def Obligations.SequenceErrorsChangeOnlyTheRecord : Prop :=
  ∀ s : State,
    (s.flag .pbValid = false → ∀ a : Word, exec (.envBuild a) s = .next (s.failed .sequenceError 0 0)) ∧
    (s.flag .eHaspl = false → exec (.mpCmd 0) s = .next (s.failed .sequenceError 0 0) ∧
      exec (.mpRsp 0) s = .next (s.failed .sequenceError 0 0))

/-- Log entry 12 (the model's choice, from R94 and R191): a selector above 1, which no encoding carries, is an illegal
command wherever it is met. -/
def Obligations.SelectorsAboveOneAreIllegal : Prop :=
  ∀ (s : State) (a : Byte), 1 < a.toNat →
    decode [0x31, a] = .error (.badSource 0x31) ∧ decode [0x32, a] = .error (.badSource 0x32) ∧
    exec (.mpCmd a) s = .next (s.failed .illegalCommand 0 0x31) ∧
    exec (.mpRsp a) s = .next (s.failed .illegalCommand 0 0x32)

/-- R197, R200, R201: a function code other than 0x0103 selects the acknowledgement shape: function code, CRC over the two
bytes before it, trailing span. (What the CRC
of a response covers is PRESUMED: log entry 10.) -/
def Obligations.MpRspParsesAnAcknowledgement : Prop :=
  ∀ (s : State) (src : Byte) (fc crc : Half) (trailing : List Byte), fc ≠ 0x0103 →
    s.holdsSpan src (be16 fc ++ le16 crc ++ trailing) →
    let check := crc16 (be16 fc)
    exec (.mpRsp src) s = .next { s with
      status := (s.status &&& 0x67) ||| (if check = crc then 0x88 else 0x98)
      err := if check = crc then s.err else 3
      errPos := if check = crc then s.errPos else 2
      errEnt := if check = crc then s.errEnt else 1
      crc := check, mState := 7, mFc := fc, mLen := 0, mStart := 0, mCount := 0, mCrc := crc, mNreg := 0
      mToff := 4, mTlen := BitVec.ofNat 16 trailing.length, mNent := 2
      mBase := s.spanBase src, mSlen := s.spanLength src, mReg := []
      outcome := some (if check = crc then .ok else .okFlagged) }

/-- R197, R198, R200, R201: function code 0x0103 with length byte 0 selects the empty read: no register is extracted.
(What the CRC of a response covers is PRESUMED: log entry 10.) -/
def Obligations.MpRspParsesAnEmptyRead : Prop :=
  ∀ (s : State) (src : Byte) (crc : Half) (trailing : List Byte),
    s.holdsSpan src ([0x01, 0x03, 0x00] ++ le16 crc ++ trailing) →
    let check := crc16 [0x01, 0x03, 0x00]
    exec (.mpRsp src) s = .next { s with
      status := (s.status &&& 0x67) ||| (if check = crc then 0x88 else 0x98)
      err := if check = crc then s.err else 3
      errPos := if check = crc then s.errPos else 3
      errEnt := if check = crc then s.errEnt else 2
      crc := check, mState := 7, mFc := 0x0103, mLen := 0, mStart := 0, mCount := 0, mCrc := crc, mNreg := 0
      mToff := 5, mTlen := BitVec.ofNat 16 trailing.length, mNent := 3
      mBase := s.spanBase src, mSlen := s.spanLength src, mReg := []
      outcome := some (if check = crc then .ok else .okFlagged) }

/-- R197 to R201: function code 0x0103 with a length byte above 0, whatever it is, extracts exactly `CATALOG_REGS`
big-endian registers, then the CRC of every byte before it. (What the CRC
of a response covers is PRESUMED: log entry 10.) -/
def Obligations.MpRspExtractsTheRegisterTable : Prop :=
  ∀ (s : State) (src len : Byte) (table : List Half) (crc : Half) (trailing : List Byte),
    len ≠ 0 → 1 ≤ s.cfg.catalogRegs → s.cfg.catalogRegs ≤ 127 → table.length = s.cfg.catalogRegs →
    s.holdsSpan src ([0x01, 0x03, len] ++ tableBytes table ++ le16 crc ++ trailing) →
    let check := crc16 ([0x01, 0x03, len] ++ tableBytes table)
    let c := s.cfg.catalogRegs
    ∃ t, exec (.mpRsp src) s = .next t ∧ (∀ (i : Nat) (h : i < table.length), Mem.read t.mReg i = table[i]) ∧
      (∀ i, c ≤ i → Mem.read t.mReg i = 0) ∧
      t = { s with
        status := (s.status &&& 0x67) ||| (if check = crc then 0x88 else 0x98)
        err := if check = crc then s.err else 3
        errPos := if check = crc then s.errPos else BitVec.ofNat 16 (3 + 2 * c)
        errEnt := if check = crc then s.errEnt else BitVec.ofNat 16 (c + 2)
        crc := check, mState := 7, mFc := 0x0103, mLen := len, mStart := 0, mCount := 0, mCrc := crc
        mNreg := BitVec.ofNat 8 c, mToff := BitVec.ofNat 16 (5 + 2 * c)
        mTlen := BitVec.ofNat 16 trailing.length, mNent := BitVec.ofNat 8 (c + 3)
        mBase := s.spanBase src, mSlen := s.spanLength src, mReg := t.mReg
        outcome := some (if check = crc then .ok else .okFlagged) }

/-- R197, R198, R200, R225: the spans too short for their shape before any register: no function code, no length byte
(`MalformedSchema`), no whole CRC of an acknowledgement or of an empty read. -/
def Obligations.MpRspShortSpansRaise : Prop :=
  ∀ (s : State) (src : Byte) (bytes : List Byte), s.holdsSpan src bytes →
    let stops (e : ErrorName) (pos k : Nat) (st : Byte) (fc : Half) : Prop :=
      exec (.mpRsp src) s = .next { s with
        status := (s.status &&& 0x67) ||| 0x80, err := e.code, errPos := BitVec.ofNat 16 pos
        errEnt := BitVec.ofNat 16 k, mState := st, mFc := fc, mLen := 0, mStart := 0, mCount := 0, mCrc := 0, mNreg := 0
        mToff := 0, mTlen := 0, mNent := BitVec.ofNat 8 k, mBase := s.spanBase src, mSlen := s.spanLength src
        mReg := [], outcome := some (.error e) }
    (bytes.length < 2 → stops .truncatedInput 0 0 1 0) ∧
    (bytes = [0x01, 0x03] → stops .malformedSchema 2 1 2 0x0103) ∧
    (2 ≤ bytes.length → bytes.length < 4 → ofBE16 bytes ≠ 0x0103 → stops .truncatedInput 2 1 4 (ofBE16 bytes)) ∧
    (bytes.take 3 = [0x01, 0x03, 0x00] → bytes.length < 5 → stops .truncatedInput 3 2 4 0x0103)

/-- R199, R200, R222, R234: a read response whose table or whose CRC is not there whole raises `TruncatedInput` at the
register, or at the CRC, that does not fit; the registers before it stay readable and are counted; `M_VALID` is 0. -/
def Obligations.MpRspTruncatedTableKeepsItsRegisters : Prop :=
  ∀ (s : State) (src len : Byte) (table : List Half) (rest : List Byte),
    len ≠ 0 → s.cfg.catalogRegs ≤ 127 → table.length ≤ s.cfg.catalogRegs → rest.length < 2 →
    s.holdsSpan src ([0x01, 0x03, len] ++ tableBytes table ++ rest) →
    let i := table.length
    ∃ t, exec (.mpRsp src) s = .next t ∧ (∀ (j : Nat) (h : j < table.length), Mem.read t.mReg j = table[j]) ∧
      (∀ j, i ≤ j → Mem.read t.mReg j = 0) ∧
      t = { s with
        status := (s.status &&& 0x67) ||| 0x80
        err := 1, errPos := BitVec.ofNat 16 (3 + 2 * i), errEnt := BitVec.ofNat 16 (2 + i)
        mState := if i = s.cfg.catalogRegs then 4 else 3
        mFc := 0x0103, mLen := len, mStart := 0, mCount := 0, mCrc := 0, mNreg := BitVec.ofNat 8 i
        mToff := 0, mTlen := 0, mNent := BitVec.ofNat 8 (2 + i)
        mBase := s.spanBase src, mSlen := s.spanLength src, mReg := t.mReg
        outcome := some (.error .truncatedInput) }

/-- R204: what holds after an `MP.RSP` that completed and leaves `M_VALID = 1`. -/
def Obligations.ValidResponseParsePromises : Prop :=
  ∀ (s t : State) (src : Byte), s.cfg.catalogRegs ≤ 127 → exec (.mpRsp src) s = .next t →
    t.outcome = some .ok ∨ t.outcome = some .okFlagged → t.flag .mValid = true →
    t.mState = 7 ∧ t.mToff.toNat + t.mTlen.toNat = t.mSlen.toNat ∧
    t.crc = crc16 (Mem.readRange t.ibuf t.mBase.toNat (t.mToff.toNat - 2)) ∧
    (t.flag .crcBad = true ↔ t.crc ≠ t.mCrc) ∧
    (t.mFc ≠ 0x0103 → t.mNent = 2 ∧ t.mNreg = 0 ∧ t.mLen = 0 ∧ t.mToff = 4 ∧ 4 ≤ t.mSlen.toNat) ∧
    (t.mFc = 0x0103 → t.mLen = 0 → t.mNent = 3 ∧ t.mNreg = 0 ∧ t.mToff = 5) ∧
    (t.mFc = 0x0103 → t.mLen ≠ 0 → t.mNreg.toNat = s.cfg.catalogRegs ∧ t.mNent.toNat = s.cfg.catalogRegs + 3 ∧
      t.mToff.toNat = 5 + 2 * s.cfg.catalogRegs)

/-- R205, R206, R207: a view of an extracted register: zero-extended, sign-extended, or two registers with the low word
first; nothing but `RDATA` changes. A register that was not extracted is `TruncatedInput` at the offset and entry it would
have had, with `RDATA` unchanged. -/
def Obligations.RegisterViewsReadTheTable : Prop :=
  (∀ a : Byte, decode [0x38, a] = .ok (.fxU16 a) ∧ decode [0x39, a] = .ok (.fxS16 a) ∧
    decode [0x3A, a] = .ok (.fxD32 a)) ∧
  ∀ (s : State) (a : Byte),
    (a.toNat < s.mNreg.toNat → s.mNreg.toNat ≤ s.cfg.catalogRegs →
      exec (.fxU16 a) s = .next { s with
        rdata := BitVec.ofNat 32 (Mem.read s.mReg a.toNat).toNat, outcome := some .ok } ∧
      exec (.fxS16 a) s = .next { s with
        rdata := BitVec.ofInt 32 (Mem.read s.mReg a.toNat).toInt, outcome := some .ok }) ∧
    (a.toNat + 1 < s.mNreg.toNat → s.mNreg.toNat ≤ s.cfg.catalogRegs →
      exec (.fxD32 a) s = .next { s with
        rdata := BitVec.ofNat 32 ((Mem.read s.mReg (a.toNat + 1)).toNat * 2 ^ 16 + (Mem.read s.mReg a.toNat).toNat)
        outcome := some .ok }) ∧
    (s.mNreg.toNat ≤ a.toNat →
      exec (.fxU16 a) s = .next (s.failed .truncatedInput (3 + 2 * a.toNat) (2 + a.toNat)) ∧
      exec (.fxS16 a) s = .next (s.failed .truncatedInput (3 + 2 * a.toNat) (2 + a.toNat))) ∧
    (s.mNreg.toNat ≤ a.toNat + 1 →
      exec (.fxD32 a) s = .next (s.failed .truncatedInput (3 + 2 * a.toNat) (2 + a.toNat)))

/-! ## Messages on the wire -/

/-- Log entry 7 (the model's choice, from R102, R191, R263): a wire row runs `IB.CLR`, `IB.LOAD` of its bytes in chunks of
at most 255, then the parser of its kind, each whatever the one before it answered. -/
def Obligations.WireRowsRunTheHostsProcedure : Prop :=
  ∀ (i : Instr) (s : State), isWireRow i = true →
    ∃ pieces : List (List Byte), pieces.flatten = encode i ∧ (∀ p ∈ pieces, p ≠ [] ∧ p.length ≤ 255) ∧
      exec i s = runSeq (.ibClr :: pieces.map .ibLoad ++ [parserOf i]) s

/-- Log entry 7 (the model's choice), R97, R171 to R181: a frame whose fields fit its wire format, handed over, leaves its
bytes in the input buffer and its fields in the `E_*` registers; `E_VALID = 1`, and `CHK_BAD` tells a wrong checksum. -/
def Obligations.WireFrameIsParsed : Prop :=
  ∀ (s : State) (len ctrl cnt : Half) (ser : Word) (data payload : List Byte) (chk : Byte),
    Mem.wf s.ibuf = true → s.cfg.ibufMax ≤ 65535 → s.cfg.dataPattern.length = 15 → data.length = 15 →
    len.toNat = 15 + payload.length → 28 + payload.length ≤ s.cfg.ibufMax →
    let i : Instr := .wireEnvelopeFrame len ctrl cnt ser data payload chk 0x15
    ∃ t, exec i s = .next t ∧ t.holdsInput (encode i) ∧ t.flag .eValid = true ∧
      (t.flag .chkBad = true ↔ sum8 ((encode i).tail.take (25 + payload.length)) ≠ chk) ∧
      t.eLen = len ∧ t.eCtrl = ctrl ∧ t.eCnt = cnt ∧ t.eSer = ser ∧ t.ePoff = 26 ∧ t.ePlen.toNat = payload.length ∧
      t.eChk = chk ∧ t.eTlen = 0 ∧ (∀ (j : Nat) (h : j < data.length), Mem.read t.eData j = data[j]) ∧
      t = { s with
        status := t.status, err := t.err, errPos := t.errPos, errEnt := t.errEnt, sum := t.sum, ilen := t.ilen
        ibuf := t.ibuf, eState := t.eState, eStart := t.eStart, eLen := t.eLen, eCtrl := t.eCtrl, eCnt := t.eCnt
        eSer := t.eSer, ePoff := t.ePoff, ePlen := t.ePlen, eChk := t.eChk, eEnd := t.eEnd, eToff := t.eToff
        eTlen := t.eTlen, eNent := t.eNent, eData := t.eData, outcome := t.outcome }

/-- Log entry 7 (the model's choice), R98, R99, R191 to R204: each Modbus message of its wire format, handed over, is
parsed whole: `M_VALID = 1`, its fields in the `M_*` registers, no trailing byte. A read response is one with a table of
`CATALOG_REGS` registers (`WireRowsRunTheHostsProcedure` and `MpRspTruncatedTableKeepsItsRegisters` speak of others). (That
the CRC of a response covers all but its last two bytes is PRESUMED: log entry 10.) -/
def Obligations.WireModbusMessagesAreParsed : Prop :=
  ∀ (s : State), Mem.wf s.ibuf = true → s.cfg.legal →
    let parsed (i : Instr) (fc crc : Half) (t : State) : Prop :=
      exec i s = .next t ∧ t.holdsInput (encode i) ∧ t.flag .mValid = true ∧ (t.flag .crcBad = true ↔ t.crc ≠ crc) ∧
      t.mFc = fc ∧ t.mCrc = crc ∧ t.mTlen = 0 ∧ t.mBase = 0 ∧
      t.crc = crc16 ((encode i).take ((encode i).length - 2)) ∧
      t = { s with
        status := t.status, err := t.err, errPos := t.errPos, errEnt := t.errEnt, crc := t.crc, ilen := t.ilen
        ibuf := t.ibuf, mState := t.mState, mFc := t.mFc, mLen := t.mLen, mStart := t.mStart, mCount := t.mCount
        mCrc := t.mCrc, mNreg := t.mNreg, mToff := t.mToff, mTlen := t.mTlen, mNent := t.mNent, mBase := t.mBase
        mSlen := t.mSlen, mReg := t.mReg, outcome := t.outcome }
    (∀ fc start count crc : Half, ∃ t, parsed (.wireModbusRequest fc start count crc) fc crc t ∧
      t.mStart = start ∧ t.mCount = count ∧ t.flag .mRsp = false) ∧
    (∀ fc crc : Half, fc ≠ 0x0103 → ∃ t, parsed (.wireModbusResponseAck fc crc) fc crc t ∧ t.mNreg = 0 ∧
      t.flag .mRsp = true) ∧
    (∀ crc : Half, ∃ t, parsed (.wireModbusResponseEmptyRead crc) 0x0103 crc t ∧ t.mLen = 0 ∧ t.mNreg = 0 ∧
      t.flag .mRsp = true) ∧
    (∀ (len : Byte) (table : List Half) (crc : Half), len ≠ 0 → table.length = s.cfg.catalogRegs →
      5 + 2 * table.length ≤ s.cfg.ibufMax →
      ∃ t, parsed (.wireModbusResponseRead len table crc) 0x0103 crc t ∧ t.mLen = len ∧
        t.mNreg.toNat = table.length ∧ (∀ (j : Nat) (h : j < table.length), Mem.read t.mReg j = table[j]) ∧
        t.flag .mRsp = true)

/-- R184, R190 against R171 to R202 (DEYE's round trip): a request built and wrapped by the FCB, its 36 bytes copied into
the input buffer, parses back to the operands, the control code and the counter it was built with, with both checks
good. -/
def Obligations.BuiltFrameParsesBackToItsOperands : Prop :=
  ∀ (s : State) (fc start count : Half) (ser : Word), MachineInv s →
    ∃ t u, runSeq [.mbReq fc start count, .envBuild ser] s = .next t ∧
      runSeq [.ibClr, .ibLoad (Mem.readRange t.obuf 0 36), .epRun, .mpCmd 0] t = .next u ∧
      u.flag .eValid = true ∧ u.flag .chkBad = false ∧ u.flag .mValid = true ∧ u.flag .crcBad = false ∧
      u.eCtrl = s.ctrl ∧ u.eCnt = s.cnt ∧ u.eSer = ser ∧ u.eTlen = 0 ∧
      u.mFc = fc ∧ u.mStart = start ∧ u.mCount = count ∧ u.mTlen = 0 ∧ u.cnt = s.cnt + 1 ∧ u.outcome = some .ok

/-! ## The whole machine -/

/-- R93 to R97, R221: sample words decode to the instructions they stand for, and the error codes are the table's. -/
def Obligations.SampleWordsDecode : Prop :=
  decode [0x00] = .ok .nop ∧ decode [0x03, 0x07] = .ok (.rd 0x07) ∧
  decode [0x04, 0x06, 0x00, 0x00, 0x12, 0x34] = .ok (.wr 0x06 0x00001234) ∧
  decode [0x09, 0x03, 0xA5, 0x17, 0x00] = .ok (.ibLoad [0xA5, 0x17, 0x00]) ∧
  decode [0x12, 0x00, 0x1A, 0x00, 0x06] = .ok (.crcBuf 26 6) ∧
  decode [0x1A, 0x00, 0x01, 0x00, 0x21] = .ok (.sumBuf 1 33) ∧
  decode [0x21, 0xEC, 0xC1, 0xFA, 0x11] = .ok (.envBuild 3972135441) ∧
  decode [0x30, 0x01, 0x03, 0x00, 0x3C, 0x00, 0x01] = .ok (.mbReq 0x0103 0x003C 0x0001) ∧
  decode [0x3A, 0x02] = .ok (.fxD32 2) ∧ decode [0x31, 0x02] = .error (.badSource 0x31) ∧
  decode [0x05] = .error (.reservedOpcode 0x05) ∧
  decodeMessage .response [0x01, 0x10, 0x01, 0xEC] = .ok (.wireModbusResponseAck 0x0110 0xEC01) ∧
  [ErrorName.truncatedInput, .outOfRange, .checksumMismatch, .malformedSchema, .badDelimiter, .illegalCommand,
    .sequenceError].map ErrorName.code = [1, 2, 3, 4, 5, 6, 7]

/-- R92, R93, R96 to R99: decoding the encoding of a well-formed instruction gives it back, with every operand at every
value. -/
def Obligations.DecodeOfEncodeIsTheInstruction : Prop :=
  ∀ i : Instr, i.wellFormed = true → decodeInput (present i) = .ok i

/-- R94, R96: whatever the decoder accepts is well-formed and is exactly the encoding of what it is decoded to; so no
encoding executes as another command. -/
def Obligations.EncodeOfDecodeIsTheInput : Prop :=
  ∀ (input : HostInput) (i : Instr), decodeInput input = .ok i → i.wellFormed = true ∧ present i = input

/-- R161: a step takes the next host input and runs the instruction it decodes to, the rest of the queue kept; with
nothing queued nothing changes; a table word put first in the queue is what the next step runs. -/
def Obligations.StepRunsTheDecodedInstruction : Prop :=
  (∀ (s : State) (input : HostInput) (queue : List HostInput) (i : Instr), s.pending = input :: queue →
    decodeInput input = .ok i → step s = exec i { s with pending := queue }) ∧
  (∀ s : State, s.pending = [] → step s = .next s) ∧
  (∀ (s : State) (nbits w : Nat) (i : Instr), decodeTableWord nbits w = some i →
    step (s.withFetchWord nbits w) = exec i s)

/-- R94, R161, R228: a byte string the decoder rejects raises `IllegalCommand` with its first byte recorded, 0 for the
empty string; nothing else changes. -/
def Obligations.IllegalCommandsChangeOnlyTheRecord : Prop :=
  ∀ (s : State) (bytes : List Byte) (queue : List HostInput) (why : DecodeError), decode bytes = .error why →
    step (s.withPending (.command bytes :: queue)) =
      .next ({ s with pending := queue }.failed .illegalCommand 0 (bytes.headD 0).toNat)

/-- R94: every opcode that R93 does not list is reserved, whatever follows it. -/
def Obligations.UnlistedOpcodesAreReserved : Prop :=
  ∀ (op : Byte) (rest : List Byte),
    op.toNat ∉ [0x00, 0x01, 0x02, 0x03, 0x04, 0x08, 0x09, 0x0A, 0x0B, 0x0C, 0x0D, 0x10, 0x11, 0x12, 0x18, 0x19, 0x1A,
      0x20, 0x21, 0x30, 0x31, 0x32, 0x38, 0x39, 0x3A] →
    decode (op :: rest) = .error (.reservedOpcode op)

/-- R20 to R37: reset meets the invariant with the recommended parameters (log entry 1: those values are the model's
choice), and with any legal ones. -/
def Obligations.InvariantHoldsAtReset : Prop :=
  MachineInv State.reset ∧ ∀ c : Config, c.legal → MachineInv { State.reset with cfg := c }

/-- Every step keeps the invariant, from every state that meets it. -/
def Obligations.EveryStepKeepsTheInvariant : Prop :=
  ∀ s t : State, MachineInv s → step s = .next t → MachineInv t

/-- R220, R161: an error never stops the FCB: from every state that meets the invariant the step answers a next state,
whatever the host sends. -/
def Obligations.NoStepStopsTheMachine : Prop :=
  ∀ s : State, MachineInv s → ∃ t, step s = .next t

/-- R21, R23, R25, R36, R38: which commands change each flag, register and array, `RESET` aside: the eight flags of
`STATUS`, each in the direction R25 gives; the error record, by `CLRERR` and whatever raises or flags; every other register
of R21; `RDATA`; the five arrays. A wire row counts as the commands it runs (log entry 7). Where R21 and R36 name one Modbus
parser as the writer, the other one only clears the register (log entry 11). -/
def Obligations.OnlyTheNamedCommandsWrite : Prop :=
  ∀ (i : Instr) (s t : State), exec i s = .next t → i ≠ .reset →
    t.cfg = s.cfg ∧ t.pending = s.pending ∧
    -- `STATUS`, flag by flag
    (t.flag .eValid = s.flag .eValid ∨ (t.flag .eValid = true ∧ runsEpRun i) ∨
      (t.flag .eValid = false ∧ (runsEpRun i ∨ loadsInput i))) ∧
    (t.flag .eHaspl = s.flag .eHaspl ∨ (t.flag .eHaspl = true ∧ runsEpRun i) ∨
      (t.flag .eHaspl = false ∧ (runsEpRun i ∨ loadsInput i))) ∧
    (t.flag .chkBad = s.flag .chkBad ∨ runsEpRun i) ∧
    (t.flag .mValid = s.flag .mValid ∨ (t.flag .mValid = true ∧ (runsMpCmd i ∨ runsMpRsp i)) ∨
      (t.flag .mValid = false ∧ (runsMpCmd i ∨ runsMpRsp i ∨ loadsInput i))) ∧
    (t.flag .crcBad = s.flag .crcBad ∨ runsMpCmd i ∨ runsMpRsp i) ∧
    (t.flag .pbValid = s.flag .pbValid ∨ (t.flag .pbValid = true ∧ ∃ a b c, i = .mbReq a b c)) ∧
    (t.flag .obValid = s.flag .obValid ∨ (t.flag .obValid = true ∧ ∃ a, i = .envBuild a) ∨
      (t.flag .obValid = false ∧ ∃ a b c, i = .mbReq a b c)) ∧
    (t.flag .mRsp = s.flag .mRsp ∨ (t.flag .mRsp = true ∧ runsMpRsp i) ∨ (t.flag .mRsp = false ∧ runsMpCmd i)) ∧
    -- the error record
    ((t.err = s.err ∧ t.errPos = s.errPos ∧ t.errEnt = s.errEnt) ∨
      (i = .clrerr ∧ t.err = 0 ∧ t.errPos = 0 ∧ t.errEnt = 0) ∨
      (∃ e, t.outcome = some (.error e) ∧ t.err = e.code) ∨
      (t.outcome = some .okFlagged ∧ t.err = 3 ∧ (runsEpRun i ∨ runsMpCmd i ∨ runsMpRsp i)) ∨ isWireRow i = true) ∧
    -- the other registers and the arrays
    (t.cnt = s.cnt ∨ (∃ v, i = .wr 0x06 v) ∨ ∃ a, i = .envBuild a) ∧
    (t.ctrl = s.ctrl ∨ ∃ v, i = .wr 0x07 v) ∧
    (t.rdata = s.rdata ∨ (∃ a, i = .rd a) ∨ (∃ a, i = .rdi a) ∨ (∃ a, i = .rdo a) ∨ (∃ a, i = .rdp a) ∨
      (∃ a, i = .rdd a) ∨ (∃ a, i = .fxU16 a) ∨ (∃ a, i = .fxS16 a) ∨ ∃ a, i = .fxD32 a) ∧
    (t.ilen = s.ilen ∨ loadsInput i) ∧
    ((∀ a, Mem.read t.ibuf a = Mem.read s.ibuf a) ∨ (∃ d, i = .ibLoad d) ∨ isWireRow i = true) ∧
    ((∀ a, Mem.read t.pbuf a = Mem.read s.pbuf a) ∨ ∃ a b c, i = .mbReq a b c) ∧
    ((∀ a, Mem.read t.obuf a = Mem.read s.obuf a) ∨ ∃ a, i = .envBuild a) ∧
    (t.olen = s.olen ∨ (∃ a, i = .envBuild a) ∨ ∃ a b c, i = .mbReq a b c) ∧
    ((∀ a, Mem.read t.eData a = Mem.read s.eData a) ∨ runsEpRun i) ∧
    ((∀ a, Mem.read t.mReg a = Mem.read s.mReg a) ∨ runsMpRsp i ∨ (runsMpCmd i ∧ ∀ a, Mem.read t.mReg a = 0)) ∧
    (t.crc = s.crc ∨ i = .crcInit ∨ (∃ a, i = .crcUpd a) ∨ (∃ a b, i = .crcBuf a b) ∨ (∃ a b c, i = .mbReq a b c) ∨
      runsMpCmd i ∨ runsMpRsp i) ∧
    (t.sum = s.sum ∨ i = .sumInit ∨ (∃ a, i = .sumUpd a) ∨ (∃ a b, i = .sumBuf a b) ∨ (∃ a, i = .envBuild a) ∨
      runsEpRun i) ∧
    (t = { t with
        eState := s.eState, eStart := s.eStart, eLen := s.eLen, eCtrl := s.eCtrl, eCnt := s.eCnt, eSer := s.eSer
        ePoff := s.ePoff, ePlen := s.ePlen, eChk := s.eChk, eEnd := s.eEnd, eToff := s.eToff, eTlen := s.eTlen
        eNent := s.eNent } ∨ runsEpRun i) ∧
    (t = { t with
        mState := s.mState, mFc := s.mFc, mCrc := s.mCrc, mToff := s.mToff, mTlen := s.mTlen, mNent := s.mNent
        mBase := s.mBase, mSlen := s.mSlen } ∨ runsMpCmd i ∨ runsMpRsp i) ∧
    ((t.mLen = s.mLen ∧ t.mNreg = s.mNreg) ∨ runsMpRsp i ∨ (runsMpCmd i ∧ t.mLen = 0 ∧ t.mNreg = 0)) ∧
    ((t.mStart = s.mStart ∧ t.mCount = s.mCount) ∨ runsMpCmd i ∨ (runsMpRsp i ∧ t.mStart = 0 ∧ t.mCount = 0))

/-- R15, R23, R26, R220, R226: every command reports an outcome. An error puts its code into `ERR` and leaves `RDATA`; a flagged
mismatch puts 3 there; a command that raises and flags nothing leaves the record, `CLRERR` and `RESET` aside (a wire row
is several commands, of which an earlier one may have raised: left out of that clause, log entry 7). -/
def Obligations.ErrorRecordFollowsTheOutcome : Prop :=
  ∀ (i : Instr) (s t : State), exec i s = .next t →
    (t.outcome = some .ok ∧
      (i = .clrerr ∨ i = .reset ∨ isWireRow i = true ∨ (t.err = s.err ∧ t.errPos = s.errPos ∧ t.errEnt = s.errEnt))) ∨
    (t.outcome = some .okFlagged ∧ t.err = 3 ∧
      (i = .epRun ∨ (∃ a, i = .mpCmd a) ∨ (∃ a, i = .mpRsp a) ∨ isWireRow i = true)) ∨
    (∃ e, t.outcome = some (.error e) ∧ t.err = e.code ∧ t.rdata = s.rdata ∧ e ≠ .checksumMismatch)
end

