-- ==== Sys2Proof/Laws/Bytes.lean ====
section
/-! SUPPORT. Byte strings of fields and fields of byte strings are inverse (00_scope.md R11). -/

namespace Sys2Proof

@[simp] theorem length_be16 (v : Half) : (be16 v).length = 2 := rfl
@[simp] theorem length_le16 (v : Half) : (le16 v).length = 2 := rfl
@[simp] theorem length_le32 (v : Word) : (le32 v).length = 4 := rfl
@[simp] theorem length_be32 (v : Word) : (be32 v).length = 4 := rfl

@[simp] theorem length_tableBytes (table : List Half) : (tableBytes table).length = 2 * table.length := by
  induction table with
  | nil => rfl
  | cons r rest ih => simp [tableBytes, ih]; omega

@[simp] theorem length_tableOf (n : Nat) (s : List Byte) : (tableOf n s).length = n := by
  induction n generalizing s with
  | zero => rfl
  | succ n ih => simp [tableOf, ih]

/-- The two halves of a 16-bit word put together again. -/
theorem append_bytes16 (v : Half) : (v.extractLsb' 8 8 ++ v.extractLsb' 0 8 : BitVec 16) = v := by
  refine BitVec.eq_of_getLsbD_eq fun i hi => ?_
  simp only [BitVec.getLsbD_append, BitVec.getLsbD_extractLsb']
  interval_cases i <;> simp

/-- The four bytes of a 32-bit word put together again. -/
theorem append_bytes32 (v : Word) :
    (v.extractLsb' 24 8 ++ v.extractLsb' 16 8 ++ v.extractLsb' 8 8 ++ v.extractLsb' 0 8 : BitVec 32) = v := by
  refine BitVec.eq_of_getLsbD_eq fun i hi => ?_
  simp only [BitVec.getLsbD_append, BitVec.getLsbD_extractLsb']
  interval_cases i <;> simp

/-- The halves of two bytes put together. -/
theorem bytes16_append (a b : Byte) : (a ++ b : Half).extractLsb' 8 8 = a ∧ (a ++ b : Half).extractLsb' 0 8 = b := by
  constructor <;> refine BitVec.eq_of_getLsbD_eq fun i hi => ?_ <;>
    simp only [BitVec.getLsbD_append, BitVec.getLsbD_extractLsb'] <;> interval_cases i <;> simp

/-- The bytes of four bytes put together. -/
theorem bytes32_append (a b c d : Byte) :
    (a ++ b ++ c ++ d : Word).extractLsb' 24 8 = a ∧ (a ++ b ++ c ++ d : Word).extractLsb' 16 8 = b ∧
    (a ++ b ++ c ++ d : Word).extractLsb' 8 8 = c ∧ (a ++ b ++ c ++ d : Word).extractLsb' 0 8 = d := by
  refine ⟨?_, ?_, ?_, ?_⟩ <;> refine BitVec.eq_of_getLsbD_eq fun i hi => ?_ <;>
    simp only [BitVec.getLsbD_append, BitVec.getLsbD_extractLsb'] <;> interval_cases i <;> simp

/-- `be16` undoes `BE16`. -/
@[simp] theorem be16_ofBE16 (a b : Byte) (rest : List Byte) : be16 (ofBE16 (a :: b :: rest)) = [a, b] := by
  have h := bytes16_append a b
  simp [be16, ofBE16, byteAt, h.1, h.2]

/-- `le16` undoes `LE16`. -/
@[simp] theorem le16_ofLE16 (a b : Byte) (rest : List Byte) : le16 (ofLE16 (a :: b :: rest)) = [a, b] := by
  have h := bytes16_append b a
  simp [le16, ofLE16, byteAt, h.1, h.2]

/-- `le32` undoes `LE32`. -/
@[simp] theorem le32_ofLE32 (a b c d : Byte) (rest : List Byte) :
    le32 (ofLE32 (a :: b :: c :: d :: rest)) = [a, b, c, d] := by
  have h := bytes32_append d c b a
  simp [le32, ofLE32, byteAt, h.1, h.2.1, h.2.2.1, h.2.2.2]

@[simp] theorem be32_ofBE32 (a b c d : Byte) (rest : List Byte) :
    be32 (ofBE32 (a :: b :: c :: d :: rest)) = [a, b, c, d] := by
  have h := bytes32_append a b c d
  simp [be32, ofBE32, byteAt, h.1, h.2.1, h.2.2.1, h.2.2.2]

/-- `BE16` undoes `be16`, whatever follows it. -/
@[simp] theorem ofBE16_be16_append (v : Half) (rest : List Byte) : ofBE16 (be16 v ++ rest) = v := append_bytes16 v

/-- `LE16` undoes `le16`, whatever follows it. -/
@[simp] theorem ofLE16_le16_append (v : Half) (rest : List Byte) : ofLE16 (le16 v ++ rest) = v := append_bytes16 v

/-- `LE32` undoes `le32`, whatever follows it. -/
@[simp] theorem ofLE32_le32_append (v : Word) (rest : List Byte) : ofLE32 (le32 v ++ rest) = v := append_bytes32 v

@[simp] theorem ofBE32_be32_append (v : Word) (rest : List Byte) : ofBE32 (be32 v ++ rest) = v := append_bytes32 v

@[simp] theorem ofBE16_be16 (v : Half) : ofBE16 (be16 v) = v := append_bytes16 v
@[simp] theorem ofLE16_le16 (v : Half) : ofLE16 (le16 v) = v := append_bytes16 v
@[simp] theorem ofLE32_le32 (v : Word) : ofLE32 (le32 v) = v := append_bytes32 v
@[simp] theorem ofBE32_be32 (v : Word) : ofBE32 (be32 v) = v := append_bytes32 v

/-- The registers of a table's bytes are the table, whatever follows them (30_encoding.md R99). -/
theorem tableOf_tableBytes_append (table : List Half) (rest : List Byte) :
    tableOf table.length (tableBytes table ++ rest) = table := by
  induction table with
  | nil => rfl
  | cons r table ih =>
    rw [List.length_cons, tableOf, tableBytes, List.append_assoc, ofBE16_be16_append, List.drop_left' (by simp), ih]

@[simp] theorem tableOf_tableBytes (table : List Half) : tableOf table.length (tableBytes table) = table := by
  simpa using tableOf_tableBytes_append table []

end Sys2Proof
end

