-- ==== Sys2Proof/Laws/State.lean ====
section
/-! SUPPORT. One lemma per field per named update of the state, all true by unfolding, so that no later proof unfolds a
record update. -/

namespace Sys2Proof.Machine

section
variable (s : State) (f : Flag) (b : Bool) (o : CommandOutcome) (e : ErrorName) (pos ent n : Nat)
variable (queue : List HostInput) (es : EnvelopeState) (ms : ModbusState) (isResponse : Bool) (base slen : Half)

/-! `State.setFlag` -/

@[simp] theorem setFlag_cfg : (s.setFlag f b).cfg = s.cfg := rfl
@[simp] theorem setFlag_err : (s.setFlag f b).err = s.err := rfl
@[simp] theorem setFlag_errEnt : (s.setFlag f b).errEnt = s.errEnt := rfl
@[simp] theorem setFlag_errPos : (s.setFlag f b).errPos = s.errPos := rfl
@[simp] theorem setFlag_crc : (s.setFlag f b).crc = s.crc := rfl
@[simp] theorem setFlag_sum : (s.setFlag f b).sum = s.sum := rfl
@[simp] theorem setFlag_cnt : (s.setFlag f b).cnt = s.cnt := rfl
@[simp] theorem setFlag_ctrl : (s.setFlag f b).ctrl = s.ctrl := rfl
@[simp] theorem setFlag_ilen : (s.setFlag f b).ilen = s.ilen := rfl
@[simp] theorem setFlag_olen : (s.setFlag f b).olen = s.olen := rfl
@[simp] theorem setFlag_eState : (s.setFlag f b).eState = s.eState := rfl
@[simp] theorem setFlag_mState : (s.setFlag f b).mState = s.mState := rfl
@[simp] theorem setFlag_eStart : (s.setFlag f b).eStart = s.eStart := rfl
@[simp] theorem setFlag_eLen : (s.setFlag f b).eLen = s.eLen := rfl
@[simp] theorem setFlag_eCtrl : (s.setFlag f b).eCtrl = s.eCtrl := rfl
@[simp] theorem setFlag_eCnt : (s.setFlag f b).eCnt = s.eCnt := rfl
@[simp] theorem setFlag_eSer : (s.setFlag f b).eSer = s.eSer := rfl
@[simp] theorem setFlag_ePoff : (s.setFlag f b).ePoff = s.ePoff := rfl
@[simp] theorem setFlag_ePlen : (s.setFlag f b).ePlen = s.ePlen := rfl
@[simp] theorem setFlag_eChk : (s.setFlag f b).eChk = s.eChk := rfl
@[simp] theorem setFlag_eEnd : (s.setFlag f b).eEnd = s.eEnd := rfl
@[simp] theorem setFlag_eToff : (s.setFlag f b).eToff = s.eToff := rfl
@[simp] theorem setFlag_eTlen : (s.setFlag f b).eTlen = s.eTlen := rfl
@[simp] theorem setFlag_eNent : (s.setFlag f b).eNent = s.eNent := rfl
@[simp] theorem setFlag_mFc : (s.setFlag f b).mFc = s.mFc := rfl
@[simp] theorem setFlag_mLen : (s.setFlag f b).mLen = s.mLen := rfl
@[simp] theorem setFlag_mStart : (s.setFlag f b).mStart = s.mStart := rfl
@[simp] theorem setFlag_mCount : (s.setFlag f b).mCount = s.mCount := rfl
@[simp] theorem setFlag_mCrc : (s.setFlag f b).mCrc = s.mCrc := rfl
@[simp] theorem setFlag_mNreg : (s.setFlag f b).mNreg = s.mNreg := rfl
@[simp] theorem setFlag_mToff : (s.setFlag f b).mToff = s.mToff := rfl
@[simp] theorem setFlag_mTlen : (s.setFlag f b).mTlen = s.mTlen := rfl
@[simp] theorem setFlag_mNent : (s.setFlag f b).mNent = s.mNent := rfl
@[simp] theorem setFlag_mBase : (s.setFlag f b).mBase = s.mBase := rfl
@[simp] theorem setFlag_mSlen : (s.setFlag f b).mSlen = s.mSlen := rfl
@[simp] theorem setFlag_rdata : (s.setFlag f b).rdata = s.rdata := rfl
@[simp] theorem setFlag_ibuf : (s.setFlag f b).ibuf = s.ibuf := rfl
@[simp] theorem setFlag_pbuf : (s.setFlag f b).pbuf = s.pbuf := rfl
@[simp] theorem setFlag_obuf : (s.setFlag f b).obuf = s.obuf := rfl
@[simp] theorem setFlag_eData : (s.setFlag f b).eData = s.eData := rfl
@[simp] theorem setFlag_mReg : (s.setFlag f b).mReg = s.mReg := rfl
@[simp] theorem setFlag_pending : (s.setFlag f b).pending = s.pending := rfl
@[simp] theorem setFlag_outcome : (s.setFlag f b).outcome = s.outcome := rfl

/-! `State.withOutcome` -/

@[simp] theorem withOutcome_cfg : (s.withOutcome o).cfg = s.cfg := rfl
@[simp] theorem withOutcome_status : (s.withOutcome o).status = s.status := rfl
@[simp] theorem withOutcome_err : (s.withOutcome o).err = s.err := rfl
@[simp] theorem withOutcome_errEnt : (s.withOutcome o).errEnt = s.errEnt := rfl
@[simp] theorem withOutcome_errPos : (s.withOutcome o).errPos = s.errPos := rfl
@[simp] theorem withOutcome_crc : (s.withOutcome o).crc = s.crc := rfl
@[simp] theorem withOutcome_sum : (s.withOutcome o).sum = s.sum := rfl
@[simp] theorem withOutcome_cnt : (s.withOutcome o).cnt = s.cnt := rfl
@[simp] theorem withOutcome_ctrl : (s.withOutcome o).ctrl = s.ctrl := rfl
@[simp] theorem withOutcome_ilen : (s.withOutcome o).ilen = s.ilen := rfl
@[simp] theorem withOutcome_olen : (s.withOutcome o).olen = s.olen := rfl
@[simp] theorem withOutcome_eState : (s.withOutcome o).eState = s.eState := rfl
@[simp] theorem withOutcome_mState : (s.withOutcome o).mState = s.mState := rfl
@[simp] theorem withOutcome_eStart : (s.withOutcome o).eStart = s.eStart := rfl
@[simp] theorem withOutcome_eLen : (s.withOutcome o).eLen = s.eLen := rfl
@[simp] theorem withOutcome_eCtrl : (s.withOutcome o).eCtrl = s.eCtrl := rfl
@[simp] theorem withOutcome_eCnt : (s.withOutcome o).eCnt = s.eCnt := rfl
@[simp] theorem withOutcome_eSer : (s.withOutcome o).eSer = s.eSer := rfl
@[simp] theorem withOutcome_ePoff : (s.withOutcome o).ePoff = s.ePoff := rfl
@[simp] theorem withOutcome_ePlen : (s.withOutcome o).ePlen = s.ePlen := rfl
@[simp] theorem withOutcome_eChk : (s.withOutcome o).eChk = s.eChk := rfl
@[simp] theorem withOutcome_eEnd : (s.withOutcome o).eEnd = s.eEnd := rfl
@[simp] theorem withOutcome_eToff : (s.withOutcome o).eToff = s.eToff := rfl
@[simp] theorem withOutcome_eTlen : (s.withOutcome o).eTlen = s.eTlen := rfl
@[simp] theorem withOutcome_eNent : (s.withOutcome o).eNent = s.eNent := rfl
@[simp] theorem withOutcome_mFc : (s.withOutcome o).mFc = s.mFc := rfl
@[simp] theorem withOutcome_mLen : (s.withOutcome o).mLen = s.mLen := rfl
@[simp] theorem withOutcome_mStart : (s.withOutcome o).mStart = s.mStart := rfl
@[simp] theorem withOutcome_mCount : (s.withOutcome o).mCount = s.mCount := rfl
@[simp] theorem withOutcome_mCrc : (s.withOutcome o).mCrc = s.mCrc := rfl
@[simp] theorem withOutcome_mNreg : (s.withOutcome o).mNreg = s.mNreg := rfl
@[simp] theorem withOutcome_mToff : (s.withOutcome o).mToff = s.mToff := rfl
@[simp] theorem withOutcome_mTlen : (s.withOutcome o).mTlen = s.mTlen := rfl
@[simp] theorem withOutcome_mNent : (s.withOutcome o).mNent = s.mNent := rfl
@[simp] theorem withOutcome_mBase : (s.withOutcome o).mBase = s.mBase := rfl
@[simp] theorem withOutcome_mSlen : (s.withOutcome o).mSlen = s.mSlen := rfl
@[simp] theorem withOutcome_rdata : (s.withOutcome o).rdata = s.rdata := rfl
@[simp] theorem withOutcome_ibuf : (s.withOutcome o).ibuf = s.ibuf := rfl
@[simp] theorem withOutcome_pbuf : (s.withOutcome o).pbuf = s.pbuf := rfl
@[simp] theorem withOutcome_obuf : (s.withOutcome o).obuf = s.obuf := rfl
@[simp] theorem withOutcome_eData : (s.withOutcome o).eData = s.eData := rfl
@[simp] theorem withOutcome_mReg : (s.withOutcome o).mReg = s.mReg := rfl
@[simp] theorem withOutcome_pending : (s.withOutcome o).pending = s.pending := rfl
@[simp] theorem withOutcome_outcome : (s.withOutcome o).outcome = some o := rfl

/-! `State.recordError` -/

@[simp] theorem recordError_cfg : (s.recordError e pos ent).cfg = s.cfg := rfl
@[simp] theorem recordError_status : (s.recordError e pos ent).status = s.status := rfl
@[simp] theorem recordError_err : (s.recordError e pos ent).err = e.code := rfl
@[simp] theorem recordError_errEnt : (s.recordError e pos ent).errEnt = BitVec.ofNat 16 ent := rfl
@[simp] theorem recordError_errPos : (s.recordError e pos ent).errPos = BitVec.ofNat 16 pos := rfl
@[simp] theorem recordError_crc : (s.recordError e pos ent).crc = s.crc := rfl
@[simp] theorem recordError_sum : (s.recordError e pos ent).sum = s.sum := rfl
@[simp] theorem recordError_cnt : (s.recordError e pos ent).cnt = s.cnt := rfl
@[simp] theorem recordError_ctrl : (s.recordError e pos ent).ctrl = s.ctrl := rfl
@[simp] theorem recordError_ilen : (s.recordError e pos ent).ilen = s.ilen := rfl
@[simp] theorem recordError_olen : (s.recordError e pos ent).olen = s.olen := rfl
@[simp] theorem recordError_eState : (s.recordError e pos ent).eState = s.eState := rfl
@[simp] theorem recordError_mState : (s.recordError e pos ent).mState = s.mState := rfl
@[simp] theorem recordError_eStart : (s.recordError e pos ent).eStart = s.eStart := rfl
@[simp] theorem recordError_eLen : (s.recordError e pos ent).eLen = s.eLen := rfl
@[simp] theorem recordError_eCtrl : (s.recordError e pos ent).eCtrl = s.eCtrl := rfl
@[simp] theorem recordError_eCnt : (s.recordError e pos ent).eCnt = s.eCnt := rfl
@[simp] theorem recordError_eSer : (s.recordError e pos ent).eSer = s.eSer := rfl
@[simp] theorem recordError_ePoff : (s.recordError e pos ent).ePoff = s.ePoff := rfl
@[simp] theorem recordError_ePlen : (s.recordError e pos ent).ePlen = s.ePlen := rfl
@[simp] theorem recordError_eChk : (s.recordError e pos ent).eChk = s.eChk := rfl
@[simp] theorem recordError_eEnd : (s.recordError e pos ent).eEnd = s.eEnd := rfl
@[simp] theorem recordError_eToff : (s.recordError e pos ent).eToff = s.eToff := rfl
@[simp] theorem recordError_eTlen : (s.recordError e pos ent).eTlen = s.eTlen := rfl
@[simp] theorem recordError_eNent : (s.recordError e pos ent).eNent = s.eNent := rfl
@[simp] theorem recordError_mFc : (s.recordError e pos ent).mFc = s.mFc := rfl
@[simp] theorem recordError_mLen : (s.recordError e pos ent).mLen = s.mLen := rfl
@[simp] theorem recordError_mStart : (s.recordError e pos ent).mStart = s.mStart := rfl
@[simp] theorem recordError_mCount : (s.recordError e pos ent).mCount = s.mCount := rfl
@[simp] theorem recordError_mCrc : (s.recordError e pos ent).mCrc = s.mCrc := rfl
@[simp] theorem recordError_mNreg : (s.recordError e pos ent).mNreg = s.mNreg := rfl
@[simp] theorem recordError_mToff : (s.recordError e pos ent).mToff = s.mToff := rfl
@[simp] theorem recordError_mTlen : (s.recordError e pos ent).mTlen = s.mTlen := rfl
@[simp] theorem recordError_mNent : (s.recordError e pos ent).mNent = s.mNent := rfl
@[simp] theorem recordError_mBase : (s.recordError e pos ent).mBase = s.mBase := rfl
@[simp] theorem recordError_mSlen : (s.recordError e pos ent).mSlen = s.mSlen := rfl
@[simp] theorem recordError_rdata : (s.recordError e pos ent).rdata = s.rdata := rfl
@[simp] theorem recordError_ibuf : (s.recordError e pos ent).ibuf = s.ibuf := rfl
@[simp] theorem recordError_pbuf : (s.recordError e pos ent).pbuf = s.pbuf := rfl
@[simp] theorem recordError_obuf : (s.recordError e pos ent).obuf = s.obuf := rfl
@[simp] theorem recordError_eData : (s.recordError e pos ent).eData = s.eData := rfl
@[simp] theorem recordError_mReg : (s.recordError e pos ent).mReg = s.mReg := rfl
@[simp] theorem recordError_pending : (s.recordError e pos ent).pending = s.pending := rfl
@[simp] theorem recordError_outcome : (s.recordError e pos ent).outcome = s.outcome := rfl

/-! `State.clearError` -/

@[simp] theorem clearError_cfg : (s.clearError).cfg = s.cfg := rfl
@[simp] theorem clearError_status : (s.clearError).status = s.status := rfl
@[simp] theorem clearError_err : (s.clearError).err = 0 := rfl
@[simp] theorem clearError_errEnt : (s.clearError).errEnt = 0 := rfl
@[simp] theorem clearError_errPos : (s.clearError).errPos = 0 := rfl
@[simp] theorem clearError_crc : (s.clearError).crc = s.crc := rfl
@[simp] theorem clearError_sum : (s.clearError).sum = s.sum := rfl
@[simp] theorem clearError_cnt : (s.clearError).cnt = s.cnt := rfl
@[simp] theorem clearError_ctrl : (s.clearError).ctrl = s.ctrl := rfl
@[simp] theorem clearError_ilen : (s.clearError).ilen = s.ilen := rfl
@[simp] theorem clearError_olen : (s.clearError).olen = s.olen := rfl
@[simp] theorem clearError_eState : (s.clearError).eState = s.eState := rfl
@[simp] theorem clearError_mState : (s.clearError).mState = s.mState := rfl
@[simp] theorem clearError_eStart : (s.clearError).eStart = s.eStart := rfl
@[simp] theorem clearError_eLen : (s.clearError).eLen = s.eLen := rfl
@[simp] theorem clearError_eCtrl : (s.clearError).eCtrl = s.eCtrl := rfl
@[simp] theorem clearError_eCnt : (s.clearError).eCnt = s.eCnt := rfl
@[simp] theorem clearError_eSer : (s.clearError).eSer = s.eSer := rfl
@[simp] theorem clearError_ePoff : (s.clearError).ePoff = s.ePoff := rfl
@[simp] theorem clearError_ePlen : (s.clearError).ePlen = s.ePlen := rfl
@[simp] theorem clearError_eChk : (s.clearError).eChk = s.eChk := rfl
@[simp] theorem clearError_eEnd : (s.clearError).eEnd = s.eEnd := rfl
@[simp] theorem clearError_eToff : (s.clearError).eToff = s.eToff := rfl
@[simp] theorem clearError_eTlen : (s.clearError).eTlen = s.eTlen := rfl
@[simp] theorem clearError_eNent : (s.clearError).eNent = s.eNent := rfl
@[simp] theorem clearError_mFc : (s.clearError).mFc = s.mFc := rfl
@[simp] theorem clearError_mLen : (s.clearError).mLen = s.mLen := rfl
@[simp] theorem clearError_mStart : (s.clearError).mStart = s.mStart := rfl
@[simp] theorem clearError_mCount : (s.clearError).mCount = s.mCount := rfl
@[simp] theorem clearError_mCrc : (s.clearError).mCrc = s.mCrc := rfl
@[simp] theorem clearError_mNreg : (s.clearError).mNreg = s.mNreg := rfl
@[simp] theorem clearError_mToff : (s.clearError).mToff = s.mToff := rfl
@[simp] theorem clearError_mTlen : (s.clearError).mTlen = s.mTlen := rfl
@[simp] theorem clearError_mNent : (s.clearError).mNent = s.mNent := rfl
@[simp] theorem clearError_mBase : (s.clearError).mBase = s.mBase := rfl
@[simp] theorem clearError_mSlen : (s.clearError).mSlen = s.mSlen := rfl
@[simp] theorem clearError_rdata : (s.clearError).rdata = s.rdata := rfl
@[simp] theorem clearError_ibuf : (s.clearError).ibuf = s.ibuf := rfl
@[simp] theorem clearError_pbuf : (s.clearError).pbuf = s.pbuf := rfl
@[simp] theorem clearError_obuf : (s.clearError).obuf = s.obuf := rfl
@[simp] theorem clearError_eData : (s.clearError).eData = s.eData := rfl
@[simp] theorem clearError_mReg : (s.clearError).mReg = s.mReg := rfl
@[simp] theorem clearError_pending : (s.clearError).pending = s.pending := rfl
@[simp] theorem clearError_outcome : (s.clearError).outcome = s.outcome := rfl

/-! `State.withPending` -/

@[simp] theorem withPending_cfg : (s.withPending queue).cfg = s.cfg := rfl
@[simp] theorem withPending_status : (s.withPending queue).status = s.status := rfl
@[simp] theorem withPending_err : (s.withPending queue).err = s.err := rfl
@[simp] theorem withPending_errEnt : (s.withPending queue).errEnt = s.errEnt := rfl
@[simp] theorem withPending_errPos : (s.withPending queue).errPos = s.errPos := rfl
@[simp] theorem withPending_crc : (s.withPending queue).crc = s.crc := rfl
@[simp] theorem withPending_sum : (s.withPending queue).sum = s.sum := rfl
@[simp] theorem withPending_cnt : (s.withPending queue).cnt = s.cnt := rfl
@[simp] theorem withPending_ctrl : (s.withPending queue).ctrl = s.ctrl := rfl
@[simp] theorem withPending_ilen : (s.withPending queue).ilen = s.ilen := rfl
@[simp] theorem withPending_olen : (s.withPending queue).olen = s.olen := rfl
@[simp] theorem withPending_eState : (s.withPending queue).eState = s.eState := rfl
@[simp] theorem withPending_mState : (s.withPending queue).mState = s.mState := rfl
@[simp] theorem withPending_eStart : (s.withPending queue).eStart = s.eStart := rfl
@[simp] theorem withPending_eLen : (s.withPending queue).eLen = s.eLen := rfl
@[simp] theorem withPending_eCtrl : (s.withPending queue).eCtrl = s.eCtrl := rfl
@[simp] theorem withPending_eCnt : (s.withPending queue).eCnt = s.eCnt := rfl
@[simp] theorem withPending_eSer : (s.withPending queue).eSer = s.eSer := rfl
@[simp] theorem withPending_ePoff : (s.withPending queue).ePoff = s.ePoff := rfl
@[simp] theorem withPending_ePlen : (s.withPending queue).ePlen = s.ePlen := rfl
@[simp] theorem withPending_eChk : (s.withPending queue).eChk = s.eChk := rfl
@[simp] theorem withPending_eEnd : (s.withPending queue).eEnd = s.eEnd := rfl
@[simp] theorem withPending_eToff : (s.withPending queue).eToff = s.eToff := rfl
@[simp] theorem withPending_eTlen : (s.withPending queue).eTlen = s.eTlen := rfl
@[simp] theorem withPending_eNent : (s.withPending queue).eNent = s.eNent := rfl
@[simp] theorem withPending_mFc : (s.withPending queue).mFc = s.mFc := rfl
@[simp] theorem withPending_mLen : (s.withPending queue).mLen = s.mLen := rfl
@[simp] theorem withPending_mStart : (s.withPending queue).mStart = s.mStart := rfl
@[simp] theorem withPending_mCount : (s.withPending queue).mCount = s.mCount := rfl
@[simp] theorem withPending_mCrc : (s.withPending queue).mCrc = s.mCrc := rfl
@[simp] theorem withPending_mNreg : (s.withPending queue).mNreg = s.mNreg := rfl
@[simp] theorem withPending_mToff : (s.withPending queue).mToff = s.mToff := rfl
@[simp] theorem withPending_mTlen : (s.withPending queue).mTlen = s.mTlen := rfl
@[simp] theorem withPending_mNent : (s.withPending queue).mNent = s.mNent := rfl
@[simp] theorem withPending_mBase : (s.withPending queue).mBase = s.mBase := rfl
@[simp] theorem withPending_mSlen : (s.withPending queue).mSlen = s.mSlen := rfl
@[simp] theorem withPending_rdata : (s.withPending queue).rdata = s.rdata := rfl
@[simp] theorem withPending_ibuf : (s.withPending queue).ibuf = s.ibuf := rfl
@[simp] theorem withPending_pbuf : (s.withPending queue).pbuf = s.pbuf := rfl
@[simp] theorem withPending_obuf : (s.withPending queue).obuf = s.obuf := rfl
@[simp] theorem withPending_eData : (s.withPending queue).eData = s.eData := rfl
@[simp] theorem withPending_mReg : (s.withPending queue).mReg = s.mReg := rfl
@[simp] theorem withPending_pending : (s.withPending queue).pending = queue := rfl
@[simp] theorem withPending_outcome : (s.withPending queue).outcome = s.outcome := rfl

/-! `State.envelopeAt` -/

@[simp] theorem envelopeAt_cfg : (s.envelopeAt n es).cfg = s.cfg := rfl
@[simp] theorem envelopeAt_status : (s.envelopeAt n es).status = s.status := rfl
@[simp] theorem envelopeAt_err : (s.envelopeAt n es).err = s.err := rfl
@[simp] theorem envelopeAt_errEnt : (s.envelopeAt n es).errEnt = s.errEnt := rfl
@[simp] theorem envelopeAt_errPos : (s.envelopeAt n es).errPos = s.errPos := rfl
@[simp] theorem envelopeAt_crc : (s.envelopeAt n es).crc = s.crc := rfl
@[simp] theorem envelopeAt_sum : (s.envelopeAt n es).sum = s.sum := rfl
@[simp] theorem envelopeAt_cnt : (s.envelopeAt n es).cnt = s.cnt := rfl
@[simp] theorem envelopeAt_ctrl : (s.envelopeAt n es).ctrl = s.ctrl := rfl
@[simp] theorem envelopeAt_ilen : (s.envelopeAt n es).ilen = s.ilen := rfl
@[simp] theorem envelopeAt_olen : (s.envelopeAt n es).olen = s.olen := rfl
@[simp] theorem envelopeAt_eState : (s.envelopeAt n es).eState = es.code := rfl
@[simp] theorem envelopeAt_mState : (s.envelopeAt n es).mState = s.mState := rfl
@[simp] theorem envelopeAt_eStart : (s.envelopeAt n es).eStart = s.eStart := rfl
@[simp] theorem envelopeAt_eLen : (s.envelopeAt n es).eLen = s.eLen := rfl
@[simp] theorem envelopeAt_eCtrl : (s.envelopeAt n es).eCtrl = s.eCtrl := rfl
@[simp] theorem envelopeAt_eCnt : (s.envelopeAt n es).eCnt = s.eCnt := rfl
@[simp] theorem envelopeAt_eSer : (s.envelopeAt n es).eSer = s.eSer := rfl
@[simp] theorem envelopeAt_ePoff : (s.envelopeAt n es).ePoff = s.ePoff := rfl
@[simp] theorem envelopeAt_ePlen : (s.envelopeAt n es).ePlen = s.ePlen := rfl
@[simp] theorem envelopeAt_eChk : (s.envelopeAt n es).eChk = s.eChk := rfl
@[simp] theorem envelopeAt_eEnd : (s.envelopeAt n es).eEnd = s.eEnd := rfl
@[simp] theorem envelopeAt_eToff : (s.envelopeAt n es).eToff = s.eToff := rfl
@[simp] theorem envelopeAt_eTlen : (s.envelopeAt n es).eTlen = s.eTlen := rfl
@[simp] theorem envelopeAt_eNent : (s.envelopeAt n es).eNent = BitVec.ofNat 8 n := rfl
@[simp] theorem envelopeAt_mFc : (s.envelopeAt n es).mFc = s.mFc := rfl
@[simp] theorem envelopeAt_mLen : (s.envelopeAt n es).mLen = s.mLen := rfl
@[simp] theorem envelopeAt_mStart : (s.envelopeAt n es).mStart = s.mStart := rfl
@[simp] theorem envelopeAt_mCount : (s.envelopeAt n es).mCount = s.mCount := rfl
@[simp] theorem envelopeAt_mCrc : (s.envelopeAt n es).mCrc = s.mCrc := rfl
@[simp] theorem envelopeAt_mNreg : (s.envelopeAt n es).mNreg = s.mNreg := rfl
@[simp] theorem envelopeAt_mToff : (s.envelopeAt n es).mToff = s.mToff := rfl
@[simp] theorem envelopeAt_mTlen : (s.envelopeAt n es).mTlen = s.mTlen := rfl
@[simp] theorem envelopeAt_mNent : (s.envelopeAt n es).mNent = s.mNent := rfl
@[simp] theorem envelopeAt_mBase : (s.envelopeAt n es).mBase = s.mBase := rfl
@[simp] theorem envelopeAt_mSlen : (s.envelopeAt n es).mSlen = s.mSlen := rfl
@[simp] theorem envelopeAt_rdata : (s.envelopeAt n es).rdata = s.rdata := rfl
@[simp] theorem envelopeAt_ibuf : (s.envelopeAt n es).ibuf = s.ibuf := rfl
@[simp] theorem envelopeAt_pbuf : (s.envelopeAt n es).pbuf = s.pbuf := rfl
@[simp] theorem envelopeAt_obuf : (s.envelopeAt n es).obuf = s.obuf := rfl
@[simp] theorem envelopeAt_eData : (s.envelopeAt n es).eData = s.eData := rfl
@[simp] theorem envelopeAt_mReg : (s.envelopeAt n es).mReg = s.mReg := rfl
@[simp] theorem envelopeAt_pending : (s.envelopeAt n es).pending = s.pending := rfl
@[simp] theorem envelopeAt_outcome : (s.envelopeAt n es).outcome = s.outcome := rfl

/-! `State.modbusAt` -/

@[simp] theorem modbusAt_cfg : (s.modbusAt n ms).cfg = s.cfg := rfl
@[simp] theorem modbusAt_status : (s.modbusAt n ms).status = s.status := rfl
@[simp] theorem modbusAt_err : (s.modbusAt n ms).err = s.err := rfl
@[simp] theorem modbusAt_errEnt : (s.modbusAt n ms).errEnt = s.errEnt := rfl
@[simp] theorem modbusAt_errPos : (s.modbusAt n ms).errPos = s.errPos := rfl
@[simp] theorem modbusAt_crc : (s.modbusAt n ms).crc = s.crc := rfl
@[simp] theorem modbusAt_sum : (s.modbusAt n ms).sum = s.sum := rfl
@[simp] theorem modbusAt_cnt : (s.modbusAt n ms).cnt = s.cnt := rfl
@[simp] theorem modbusAt_ctrl : (s.modbusAt n ms).ctrl = s.ctrl := rfl
@[simp] theorem modbusAt_ilen : (s.modbusAt n ms).ilen = s.ilen := rfl
@[simp] theorem modbusAt_olen : (s.modbusAt n ms).olen = s.olen := rfl
@[simp] theorem modbusAt_eState : (s.modbusAt n ms).eState = s.eState := rfl
@[simp] theorem modbusAt_mState : (s.modbusAt n ms).mState = ms.code := rfl
@[simp] theorem modbusAt_eStart : (s.modbusAt n ms).eStart = s.eStart := rfl
@[simp] theorem modbusAt_eLen : (s.modbusAt n ms).eLen = s.eLen := rfl
@[simp] theorem modbusAt_eCtrl : (s.modbusAt n ms).eCtrl = s.eCtrl := rfl
@[simp] theorem modbusAt_eCnt : (s.modbusAt n ms).eCnt = s.eCnt := rfl
@[simp] theorem modbusAt_eSer : (s.modbusAt n ms).eSer = s.eSer := rfl
@[simp] theorem modbusAt_ePoff : (s.modbusAt n ms).ePoff = s.ePoff := rfl
@[simp] theorem modbusAt_ePlen : (s.modbusAt n ms).ePlen = s.ePlen := rfl
@[simp] theorem modbusAt_eChk : (s.modbusAt n ms).eChk = s.eChk := rfl
@[simp] theorem modbusAt_eEnd : (s.modbusAt n ms).eEnd = s.eEnd := rfl
@[simp] theorem modbusAt_eToff : (s.modbusAt n ms).eToff = s.eToff := rfl
@[simp] theorem modbusAt_eTlen : (s.modbusAt n ms).eTlen = s.eTlen := rfl
@[simp] theorem modbusAt_eNent : (s.modbusAt n ms).eNent = s.eNent := rfl
@[simp] theorem modbusAt_mFc : (s.modbusAt n ms).mFc = s.mFc := rfl
@[simp] theorem modbusAt_mLen : (s.modbusAt n ms).mLen = s.mLen := rfl
@[simp] theorem modbusAt_mStart : (s.modbusAt n ms).mStart = s.mStart := rfl
@[simp] theorem modbusAt_mCount : (s.modbusAt n ms).mCount = s.mCount := rfl
@[simp] theorem modbusAt_mCrc : (s.modbusAt n ms).mCrc = s.mCrc := rfl
@[simp] theorem modbusAt_mNreg : (s.modbusAt n ms).mNreg = s.mNreg := rfl
@[simp] theorem modbusAt_mToff : (s.modbusAt n ms).mToff = s.mToff := rfl
@[simp] theorem modbusAt_mTlen : (s.modbusAt n ms).mTlen = s.mTlen := rfl
@[simp] theorem modbusAt_mNent : (s.modbusAt n ms).mNent = BitVec.ofNat 8 n := rfl
@[simp] theorem modbusAt_mBase : (s.modbusAt n ms).mBase = s.mBase := rfl
@[simp] theorem modbusAt_mSlen : (s.modbusAt n ms).mSlen = s.mSlen := rfl
@[simp] theorem modbusAt_rdata : (s.modbusAt n ms).rdata = s.rdata := rfl
@[simp] theorem modbusAt_ibuf : (s.modbusAt n ms).ibuf = s.ibuf := rfl
@[simp] theorem modbusAt_pbuf : (s.modbusAt n ms).pbuf = s.pbuf := rfl
@[simp] theorem modbusAt_obuf : (s.modbusAt n ms).obuf = s.obuf := rfl
@[simp] theorem modbusAt_eData : (s.modbusAt n ms).eData = s.eData := rfl
@[simp] theorem modbusAt_mReg : (s.modbusAt n ms).mReg = s.mReg := rfl
@[simp] theorem modbusAt_pending : (s.modbusAt n ms).pending = s.pending := rfl
@[simp] theorem modbusAt_outcome : (s.modbusAt n ms).outcome = s.outcome := rfl

/-! `State.staleSpans` -/

@[simp] theorem staleSpans_cfg : (s.staleSpans).cfg = s.cfg := rfl
@[simp] theorem staleSpans_err : (s.staleSpans).err = s.err := rfl
@[simp] theorem staleSpans_errEnt : (s.staleSpans).errEnt = s.errEnt := rfl
@[simp] theorem staleSpans_errPos : (s.staleSpans).errPos = s.errPos := rfl
@[simp] theorem staleSpans_crc : (s.staleSpans).crc = s.crc := rfl
@[simp] theorem staleSpans_sum : (s.staleSpans).sum = s.sum := rfl
@[simp] theorem staleSpans_cnt : (s.staleSpans).cnt = s.cnt := rfl
@[simp] theorem staleSpans_ctrl : (s.staleSpans).ctrl = s.ctrl := rfl
@[simp] theorem staleSpans_ilen : (s.staleSpans).ilen = s.ilen := rfl
@[simp] theorem staleSpans_olen : (s.staleSpans).olen = s.olen := rfl
@[simp] theorem staleSpans_eState : (s.staleSpans).eState = s.eState := rfl
@[simp] theorem staleSpans_mState : (s.staleSpans).mState = s.mState := rfl
@[simp] theorem staleSpans_eStart : (s.staleSpans).eStart = s.eStart := rfl
@[simp] theorem staleSpans_eLen : (s.staleSpans).eLen = s.eLen := rfl
@[simp] theorem staleSpans_eCtrl : (s.staleSpans).eCtrl = s.eCtrl := rfl
@[simp] theorem staleSpans_eCnt : (s.staleSpans).eCnt = s.eCnt := rfl
@[simp] theorem staleSpans_eSer : (s.staleSpans).eSer = s.eSer := rfl
@[simp] theorem staleSpans_ePoff : (s.staleSpans).ePoff = s.ePoff := rfl
@[simp] theorem staleSpans_ePlen : (s.staleSpans).ePlen = s.ePlen := rfl
@[simp] theorem staleSpans_eChk : (s.staleSpans).eChk = s.eChk := rfl
@[simp] theorem staleSpans_eEnd : (s.staleSpans).eEnd = s.eEnd := rfl
@[simp] theorem staleSpans_eToff : (s.staleSpans).eToff = s.eToff := rfl
@[simp] theorem staleSpans_eTlen : (s.staleSpans).eTlen = s.eTlen := rfl
@[simp] theorem staleSpans_eNent : (s.staleSpans).eNent = s.eNent := rfl
@[simp] theorem staleSpans_mFc : (s.staleSpans).mFc = s.mFc := rfl
@[simp] theorem staleSpans_mLen : (s.staleSpans).mLen = s.mLen := rfl
@[simp] theorem staleSpans_mStart : (s.staleSpans).mStart = s.mStart := rfl
@[simp] theorem staleSpans_mCount : (s.staleSpans).mCount = s.mCount := rfl
@[simp] theorem staleSpans_mCrc : (s.staleSpans).mCrc = s.mCrc := rfl
@[simp] theorem staleSpans_mNreg : (s.staleSpans).mNreg = s.mNreg := rfl
@[simp] theorem staleSpans_mToff : (s.staleSpans).mToff = s.mToff := rfl
@[simp] theorem staleSpans_mTlen : (s.staleSpans).mTlen = s.mTlen := rfl
@[simp] theorem staleSpans_mNent : (s.staleSpans).mNent = s.mNent := rfl
@[simp] theorem staleSpans_mBase : (s.staleSpans).mBase = s.mBase := rfl
@[simp] theorem staleSpans_mSlen : (s.staleSpans).mSlen = s.mSlen := rfl
@[simp] theorem staleSpans_rdata : (s.staleSpans).rdata = s.rdata := rfl
@[simp] theorem staleSpans_ibuf : (s.staleSpans).ibuf = s.ibuf := rfl
@[simp] theorem staleSpans_pbuf : (s.staleSpans).pbuf = s.pbuf := rfl
@[simp] theorem staleSpans_obuf : (s.staleSpans).obuf = s.obuf := rfl
@[simp] theorem staleSpans_eData : (s.staleSpans).eData = s.eData := rfl
@[simp] theorem staleSpans_mReg : (s.staleSpans).mReg = s.mReg := rfl
@[simp] theorem staleSpans_pending : (s.staleSpans).pending = s.pending := rfl
@[simp] theorem staleSpans_outcome : (s.staleSpans).outcome = s.outcome := rfl

/-! `State.envelopeClear` -/

@[simp] theorem envelopeClear_cfg : (s.envelopeClear).cfg = s.cfg := rfl
@[simp] theorem envelopeClear_err : (s.envelopeClear).err = s.err := rfl
@[simp] theorem envelopeClear_errEnt : (s.envelopeClear).errEnt = s.errEnt := rfl
@[simp] theorem envelopeClear_errPos : (s.envelopeClear).errPos = s.errPos := rfl
@[simp] theorem envelopeClear_crc : (s.envelopeClear).crc = s.crc := rfl
@[simp] theorem envelopeClear_sum : (s.envelopeClear).sum = s.sum := rfl
@[simp] theorem envelopeClear_cnt : (s.envelopeClear).cnt = s.cnt := rfl
@[simp] theorem envelopeClear_ctrl : (s.envelopeClear).ctrl = s.ctrl := rfl
@[simp] theorem envelopeClear_ilen : (s.envelopeClear).ilen = s.ilen := rfl
@[simp] theorem envelopeClear_olen : (s.envelopeClear).olen = s.olen := rfl
@[simp] theorem envelopeClear_eState : (s.envelopeClear).eState = 1 := rfl
@[simp] theorem envelopeClear_mState : (s.envelopeClear).mState = s.mState := rfl
@[simp] theorem envelopeClear_eStart : (s.envelopeClear).eStart = 0 := rfl
@[simp] theorem envelopeClear_eLen : (s.envelopeClear).eLen = 0 := rfl
@[simp] theorem envelopeClear_eCtrl : (s.envelopeClear).eCtrl = 0 := rfl
@[simp] theorem envelopeClear_eCnt : (s.envelopeClear).eCnt = 0 := rfl
@[simp] theorem envelopeClear_eSer : (s.envelopeClear).eSer = 0 := rfl
@[simp] theorem envelopeClear_ePoff : (s.envelopeClear).ePoff = 0 := rfl
@[simp] theorem envelopeClear_ePlen : (s.envelopeClear).ePlen = 0 := rfl
@[simp] theorem envelopeClear_eChk : (s.envelopeClear).eChk = 0 := rfl
@[simp] theorem envelopeClear_eEnd : (s.envelopeClear).eEnd = 0 := rfl
@[simp] theorem envelopeClear_eToff : (s.envelopeClear).eToff = 0 := rfl
@[simp] theorem envelopeClear_eTlen : (s.envelopeClear).eTlen = 0 := rfl
@[simp] theorem envelopeClear_eNent : (s.envelopeClear).eNent = 0 := rfl
@[simp] theorem envelopeClear_mFc : (s.envelopeClear).mFc = s.mFc := rfl
@[simp] theorem envelopeClear_mLen : (s.envelopeClear).mLen = s.mLen := rfl
@[simp] theorem envelopeClear_mStart : (s.envelopeClear).mStart = s.mStart := rfl
@[simp] theorem envelopeClear_mCount : (s.envelopeClear).mCount = s.mCount := rfl
@[simp] theorem envelopeClear_mCrc : (s.envelopeClear).mCrc = s.mCrc := rfl
@[simp] theorem envelopeClear_mNreg : (s.envelopeClear).mNreg = s.mNreg := rfl
@[simp] theorem envelopeClear_mToff : (s.envelopeClear).mToff = s.mToff := rfl
@[simp] theorem envelopeClear_mTlen : (s.envelopeClear).mTlen = s.mTlen := rfl
@[simp] theorem envelopeClear_mNent : (s.envelopeClear).mNent = s.mNent := rfl
@[simp] theorem envelopeClear_mBase : (s.envelopeClear).mBase = s.mBase := rfl
@[simp] theorem envelopeClear_mSlen : (s.envelopeClear).mSlen = s.mSlen := rfl
@[simp] theorem envelopeClear_rdata : (s.envelopeClear).rdata = s.rdata := rfl
@[simp] theorem envelopeClear_ibuf : (s.envelopeClear).ibuf = s.ibuf := rfl
@[simp] theorem envelopeClear_pbuf : (s.envelopeClear).pbuf = s.pbuf := rfl
@[simp] theorem envelopeClear_obuf : (s.envelopeClear).obuf = s.obuf := rfl
@[simp] theorem envelopeClear_eData : (s.envelopeClear).eData = [] := rfl
@[simp] theorem envelopeClear_mReg : (s.envelopeClear).mReg = s.mReg := rfl
@[simp] theorem envelopeClear_pending : (s.envelopeClear).pending = s.pending := rfl
@[simp] theorem envelopeClear_outcome : (s.envelopeClear).outcome = s.outcome := rfl

/-! `State.openSpan` -/

@[simp] theorem openSpan_cfg : (s.openSpan isResponse base slen).cfg = s.cfg := rfl
@[simp] theorem openSpan_err : (s.openSpan isResponse base slen).err = s.err := rfl
@[simp] theorem openSpan_errEnt : (s.openSpan isResponse base slen).errEnt = s.errEnt := rfl
@[simp] theorem openSpan_errPos : (s.openSpan isResponse base slen).errPos = s.errPos := rfl
@[simp] theorem openSpan_crc : (s.openSpan isResponse base slen).crc = s.crc := rfl
@[simp] theorem openSpan_sum : (s.openSpan isResponse base slen).sum = s.sum := rfl
@[simp] theorem openSpan_cnt : (s.openSpan isResponse base slen).cnt = s.cnt := rfl
@[simp] theorem openSpan_ctrl : (s.openSpan isResponse base slen).ctrl = s.ctrl := rfl
@[simp] theorem openSpan_ilen : (s.openSpan isResponse base slen).ilen = s.ilen := rfl
@[simp] theorem openSpan_olen : (s.openSpan isResponse base slen).olen = s.olen := rfl
@[simp] theorem openSpan_eState : (s.openSpan isResponse base slen).eState = s.eState := rfl
@[simp] theorem openSpan_mState : (s.openSpan isResponse base slen).mState = s.mState := rfl
@[simp] theorem openSpan_eStart : (s.openSpan isResponse base slen).eStart = s.eStart := rfl
@[simp] theorem openSpan_eLen : (s.openSpan isResponse base slen).eLen = s.eLen := rfl
@[simp] theorem openSpan_eCtrl : (s.openSpan isResponse base slen).eCtrl = s.eCtrl := rfl
@[simp] theorem openSpan_eCnt : (s.openSpan isResponse base slen).eCnt = s.eCnt := rfl
@[simp] theorem openSpan_eSer : (s.openSpan isResponse base slen).eSer = s.eSer := rfl
@[simp] theorem openSpan_ePoff : (s.openSpan isResponse base slen).ePoff = s.ePoff := rfl
@[simp] theorem openSpan_ePlen : (s.openSpan isResponse base slen).ePlen = s.ePlen := rfl
@[simp] theorem openSpan_eChk : (s.openSpan isResponse base slen).eChk = s.eChk := rfl
@[simp] theorem openSpan_eEnd : (s.openSpan isResponse base slen).eEnd = s.eEnd := rfl
@[simp] theorem openSpan_eToff : (s.openSpan isResponse base slen).eToff = s.eToff := rfl
@[simp] theorem openSpan_eTlen : (s.openSpan isResponse base slen).eTlen = s.eTlen := rfl
@[simp] theorem openSpan_eNent : (s.openSpan isResponse base slen).eNent = s.eNent := rfl
@[simp] theorem openSpan_mFc : (s.openSpan isResponse base slen).mFc = 0 := rfl
@[simp] theorem openSpan_mLen : (s.openSpan isResponse base slen).mLen = 0 := rfl
@[simp] theorem openSpan_mStart : (s.openSpan isResponse base slen).mStart = 0 := rfl
@[simp] theorem openSpan_mCount : (s.openSpan isResponse base slen).mCount = 0 := rfl
@[simp] theorem openSpan_mCrc : (s.openSpan isResponse base slen).mCrc = 0 := rfl
@[simp] theorem openSpan_mNreg : (s.openSpan isResponse base slen).mNreg = 0 := rfl
@[simp] theorem openSpan_mToff : (s.openSpan isResponse base slen).mToff = 0 := rfl
@[simp] theorem openSpan_mTlen : (s.openSpan isResponse base slen).mTlen = 0 := rfl
@[simp] theorem openSpan_mNent : (s.openSpan isResponse base slen).mNent = 0 := rfl
@[simp] theorem openSpan_mBase : (s.openSpan isResponse base slen).mBase = base := rfl
@[simp] theorem openSpan_mSlen : (s.openSpan isResponse base slen).mSlen = slen := rfl
@[simp] theorem openSpan_rdata : (s.openSpan isResponse base slen).rdata = s.rdata := rfl
@[simp] theorem openSpan_ibuf : (s.openSpan isResponse base slen).ibuf = s.ibuf := rfl
@[simp] theorem openSpan_pbuf : (s.openSpan isResponse base slen).pbuf = s.pbuf := rfl
@[simp] theorem openSpan_obuf : (s.openSpan isResponse base slen).obuf = s.obuf := rfl
@[simp] theorem openSpan_eData : (s.openSpan isResponse base slen).eData = s.eData := rfl
@[simp] theorem openSpan_mReg : (s.openSpan isResponse base slen).mReg = [] := rfl
@[simp] theorem openSpan_pending : (s.openSpan isResponse base slen).pending = s.pending := rfl
@[simp] theorem openSpan_outcome : (s.openSpan isResponse base slen).outcome = s.outcome := rfl

/-! `State.resetAll` -/

@[simp] theorem resetAll_cfg : (s.resetAll).cfg = s.cfg := rfl
@[simp] theorem resetAll_status : (s.resetAll).status = State.reset.status := rfl
@[simp] theorem resetAll_err : (s.resetAll).err = State.reset.err := rfl
@[simp] theorem resetAll_errEnt : (s.resetAll).errEnt = State.reset.errEnt := rfl
@[simp] theorem resetAll_errPos : (s.resetAll).errPos = State.reset.errPos := rfl
@[simp] theorem resetAll_crc : (s.resetAll).crc = State.reset.crc := rfl
@[simp] theorem resetAll_sum : (s.resetAll).sum = State.reset.sum := rfl
@[simp] theorem resetAll_cnt : (s.resetAll).cnt = State.reset.cnt := rfl
@[simp] theorem resetAll_ctrl : (s.resetAll).ctrl = State.reset.ctrl := rfl
@[simp] theorem resetAll_ilen : (s.resetAll).ilen = State.reset.ilen := rfl
@[simp] theorem resetAll_olen : (s.resetAll).olen = State.reset.olen := rfl
@[simp] theorem resetAll_eState : (s.resetAll).eState = State.reset.eState := rfl
@[simp] theorem resetAll_mState : (s.resetAll).mState = State.reset.mState := rfl
@[simp] theorem resetAll_eStart : (s.resetAll).eStart = State.reset.eStart := rfl
@[simp] theorem resetAll_eLen : (s.resetAll).eLen = State.reset.eLen := rfl
@[simp] theorem resetAll_eCtrl : (s.resetAll).eCtrl = State.reset.eCtrl := rfl
@[simp] theorem resetAll_eCnt : (s.resetAll).eCnt = State.reset.eCnt := rfl
@[simp] theorem resetAll_eSer : (s.resetAll).eSer = State.reset.eSer := rfl
@[simp] theorem resetAll_ePoff : (s.resetAll).ePoff = State.reset.ePoff := rfl
@[simp] theorem resetAll_ePlen : (s.resetAll).ePlen = State.reset.ePlen := rfl
@[simp] theorem resetAll_eChk : (s.resetAll).eChk = State.reset.eChk := rfl
@[simp] theorem resetAll_eEnd : (s.resetAll).eEnd = State.reset.eEnd := rfl
@[simp] theorem resetAll_eToff : (s.resetAll).eToff = State.reset.eToff := rfl
@[simp] theorem resetAll_eTlen : (s.resetAll).eTlen = State.reset.eTlen := rfl
@[simp] theorem resetAll_eNent : (s.resetAll).eNent = State.reset.eNent := rfl
@[simp] theorem resetAll_mFc : (s.resetAll).mFc = State.reset.mFc := rfl
@[simp] theorem resetAll_mLen : (s.resetAll).mLen = State.reset.mLen := rfl
@[simp] theorem resetAll_mStart : (s.resetAll).mStart = State.reset.mStart := rfl
@[simp] theorem resetAll_mCount : (s.resetAll).mCount = State.reset.mCount := rfl
@[simp] theorem resetAll_mCrc : (s.resetAll).mCrc = State.reset.mCrc := rfl
@[simp] theorem resetAll_mNreg : (s.resetAll).mNreg = State.reset.mNreg := rfl
@[simp] theorem resetAll_mToff : (s.resetAll).mToff = State.reset.mToff := rfl
@[simp] theorem resetAll_mTlen : (s.resetAll).mTlen = State.reset.mTlen := rfl
@[simp] theorem resetAll_mNent : (s.resetAll).mNent = State.reset.mNent := rfl
@[simp] theorem resetAll_mBase : (s.resetAll).mBase = State.reset.mBase := rfl
@[simp] theorem resetAll_mSlen : (s.resetAll).mSlen = State.reset.mSlen := rfl
@[simp] theorem resetAll_rdata : (s.resetAll).rdata = State.reset.rdata := rfl
@[simp] theorem resetAll_ibuf : (s.resetAll).ibuf = State.reset.ibuf := rfl
@[simp] theorem resetAll_pbuf : (s.resetAll).pbuf = State.reset.pbuf := rfl
@[simp] theorem resetAll_obuf : (s.resetAll).obuf = State.reset.obuf := rfl
@[simp] theorem resetAll_eData : (s.resetAll).eData = State.reset.eData := rfl
@[simp] theorem resetAll_mReg : (s.resetAll).mReg = State.reset.mReg := rfl
@[simp] theorem resetAll_pending : (s.resetAll).pending = s.pending := rfl
@[simp] theorem resetAll_outcome : (s.resetAll).outcome = State.reset.outcome := rfl

end

end Sys2Proof.Machine
end

