-- ==== Sys2Proof/Laws/Flags.lean ====
section
/-! SUPPORT. Reading a flag of `STATUS` after an update (10_state.md R25). -/

namespace Sys2Proof.Machine

/-- Setting a flag sets that flag and keeps the seven others. -/
@[simp] theorem State.flag_setFlag (s : State) (f g : Flag) (b : Bool) :
    (s.setFlag f b).flag g = if g = f then b else s.flag g := by
  cases f <;> cases g <;> cases b <;>
    simp [State.flag, State.setFlag, Flag.bit, Flag.mask]

/-- A state with the same `STATUS` has the same flags. -/
theorem State.flag_of_status {s t : State} (h : t.status = s.status) (f : Flag) : t.flag f = s.flag f := by
  rw [State.flag, State.flag, h]

/-- The flag of an updated state whose `STATUS` is written out. -/
theorem State.flag_eq (s : State) (f : Flag) : s.flag f = s.status.getLsbD f.bit := rfl

@[simp] theorem State.flag_withOutcome (s : State) (o : CommandOutcome) (f : Flag) :
    (s.withOutcome o).flag f = s.flag f := rfl

@[simp] theorem State.flag_recordError (s : State) (e : ErrorName) (pos ent : Nat) (f : Flag) :
    (s.recordError e pos ent).flag f = s.flag f := rfl

@[simp] theorem State.flag_clearError (s : State) (f : Flag) : s.clearError.flag f = s.flag f := rfl

@[simp] theorem State.flag_withPending (s : State) (queue : List HostInput) (f : Flag) :
    (s.withPending queue).flag f = s.flag f := rfl

@[simp] theorem State.flag_envelopeAt (s : State) (n : Nat) (st : EnvelopeState) (f : Flag) :
    (s.envelopeAt n st).flag f = s.flag f := rfl

@[simp] theorem State.flag_modbusAt (s : State) (n : Nat) (st : ModbusState) (f : Flag) :
    (s.modbusAt n st).flag f = s.flag f := rfl

/-- `IB.CLR` and `IB.LOAD` clear `E_VALID`, `E_HASPL` and `M_VALID` (42_system_and_buffers.md R155, R156). -/
@[simp] theorem State.flag_staleSpans (s : State) (f : Flag) :
    s.staleSpans.flag f = if f = .eValid ∨ f = .eHaspl ∨ f = .mValid then false else s.flag f := by
  cases f <;> simp [State.staleSpans]

/-- `EP.RUN` first clears `E_VALID`, `E_HASPL` and `CHK_BAD` (43_envelope.md R171). -/
@[simp] theorem State.flag_envelopeClear (s : State) (f : Flag) :
    s.envelopeClear.flag f = if f = .eValid ∨ f = .eHaspl ∨ f = .chkBad then false else s.flag f := by
  cases f <;> simp [State.envelopeClear] <;> rfl

/-- A Modbus parse first clears `M_VALID` and `CRC_BAD` and says which parser it is (44_modbus.md R191). -/
@[simp] theorem State.flag_openSpan (s : State) (isResponse : Bool) (base slen : Half) (f : Flag) :
    (s.openSpan isResponse base slen).flag f =
      if f = .mRsp then isResponse else if f = .mValid ∨ f = .crcBad then false else s.flag f := by
  cases f <;> simp [State.openSpan] <;> rfl

/-- Reset clears every flag (70_reset_and_hazards.md R261). -/
@[simp] theorem State.flag_resetAll (s : State) (f : Flag) : s.resetAll.flag f = false := by
  simp [State.flag, State.reset]

/-- Two `STATUS` bytes with the same eight flags are equal. -/
theorem State.status_ext {s t : State} (h : ∀ f, s.flag f = t.flag f) : s.status = t.status := by
  refine BitVec.eq_of_getLsbD_eq fun i hi => ?_
  have h0 := h .eValid
  have h1 := h .eHaspl
  have h2 := h .chkBad
  have h3 := h .mValid
  have h4 := h .crcBad
  have h5 := h .pbValid
  have h6 := h .obValid
  have h7 := h .mRsp
  simp only [State.flag, Flag.bit] at h0 h1 h2 h3 h4 h5 h6 h7
  interval_cases i <;> assumption

/-- What `IB.CLR` and `IB.LOAD` leave of `STATUS` (42_system_and_buffers.md R155, R156). -/
theorem State.status_staleSpans (s : State) : s.staleSpans.status = s.status &&& 0xF4 := by
  simp only [State.staleSpans, State.setFlag, Flag.mask, Flag.bit, Bool.false_eq_true, if_false]
  rw [BitVec.and_assoc, BitVec.and_assoc]
  rfl

end Sys2Proof.Machine
end

