-- ==== Sys2Proof/Laws/Mem.lean ====
section
/-! SUPPORT. The arrays: reading after writing, and the canonical form kept by every operation (20_memory.md R60, R65). -/

namespace Sys2Proof.Machine

variable {w : Nat}

@[simp] theorem Mem.read_nil (a : Nat) : Mem.read ([] : Mem w) a = unlisted w := rfl

/-- An array is canonical at its head and below it. -/
theorem Mem.wf_cons (k : Nat) (v : BitVec w) (rest : Mem w) :
    Mem.wf ((k, v) :: rest) = true ↔ v ≠ unlisted w ∧ (∀ c ∈ rest, k < c.1) ∧ Mem.wf rest = true := by
  simp [Mem.wf, and_assoc]

theorem Mem.below_cons (n k : Nat) (v : BitVec w) (rest : Mem w) :
    Mem.below n ((k, v) :: rest) = true ↔ k < n ∧ Mem.below n rest = true := by
  simp [Mem.below]

@[simp] theorem Mem.below_nil (n : Nat) : Mem.below n ([] : Mem w) = true := rfl

@[simp] theorem Mem.wf_nil : Mem.wf ([] : Mem w) = true := rfl

/-- An index below every listed one is unlisted. -/
theorem Mem.read_of_lt (m : Mem w) (a : Nat) (h : ∀ c ∈ m, a < c.1) : Mem.read m a = unlisted w := by
  induction m with
  | nil => rfl
  | cons c rest ih =>
    obtain ⟨k, v⟩ := c
    have hk : a < k := h (k, v) (by simp)
    simp only [Mem.read]
    rw [if_neg (by omega)]
    exact ih fun c hc => h c (by simp [hc])

theorem Mem.read_put_same (m : Mem w) (a : Nat) (v : BitVec w) (h : ∀ c ∈ m, a < c.1) :
    Mem.read (Mem.put a v m) a = v := by
  unfold Mem.put
  split
  · rename_i hv
    rw [Mem.read_of_lt m a h, hv]
  · simp [Mem.read]

theorem Mem.read_put_other (m : Mem w) (a b : Nat) (v : BitVec w) (h : b ≠ a) :
    Mem.read (Mem.put a v m) b = Mem.read m b := by
  unfold Mem.put
  split
  · rfl
  · simp [Mem.read, Ne.symm h]

/-- Reading the index just written gives the element written. -/
theorem Mem.read_write_same (m : Mem w) (hm : Mem.wf m = true) (a : Nat) (v : BitVec w) :
    Mem.read (Mem.write m a v) a = v := by
  induction m with
  | nil => exact Mem.read_put_same [] a v (by simp)
  | cons c rest ih =>
    obtain ⟨k, u⟩ := c
    obtain ⟨-, hlt, hr⟩ := (Mem.wf_cons k u rest).1 hm
    simp only [Mem.write]
    split
    · rename_i hak
      refine Mem.read_put_same _ a v fun c hc => ?_
      rcases List.mem_cons.1 hc with rfl | hc
      · exact hak
      · exact Nat.lt_trans hak (hlt c hc)
    · split
      · rename_i _ hak
        exact Mem.read_put_same _ a v fun c hc => hak ▸ hlt c hc
      · rename_i _ hak
        rw [Mem.read, if_neg (fun h => hak h.symm)]
        exact ih hr

/-- Writing leaves every other index alone. -/
theorem Mem.read_write_other (m : Mem w) (a b : Nat) (v : BitVec w) (h : b ≠ a) :
    Mem.read (Mem.write m a v) b = Mem.read m b := by
  induction m with
  | nil => exact Mem.read_put_other [] a b v h
  | cons c rest ih =>
    obtain ⟨k, u⟩ := c
    simp only [Mem.write]
    split
    · exact Mem.read_put_other _ a b v h
    · split
      · rename_i _ hak
        rw [Mem.read_put_other _ a b v h, Mem.read, if_neg (by omega)]
      · simp only [Mem.read, ih]

theorem Mem.mem_put (m : Mem w) (a : Nat) (v : BitVec w) (c : Nat × BitVec w) (hc : c ∈ Mem.put a v m) :
    c = (a, v) ∨ c ∈ m := by
  unfold Mem.put at hc
  split at hc
  · exact .inr hc
  · exact List.mem_cons.1 hc

/-- What a write lists: the element written, or what was listed before. -/
theorem Mem.mem_write (m : Mem w) (a : Nat) (v : BitVec w) (c : Nat × BitVec w) (hc : c ∈ Mem.write m a v) :
    c = (a, v) ∨ c ∈ m := by
  induction m with
  | nil => exact Mem.mem_put [] a v c hc
  | cons d rest ih =>
    obtain ⟨k, u⟩ := d
    simp only [Mem.write] at hc
    split at hc
    · exact Mem.mem_put _ a v c hc
    · split at hc
      · exact (Mem.mem_put _ a v c hc).imp_right (List.mem_cons_of_mem _)
      · rcases List.mem_cons.1 hc with h | h
        · exact .inr (by simp [h])
        · exact (ih h).imp_right (List.mem_cons_of_mem _)

theorem Mem.wf_put (m : Mem w) (a : Nat) (v : BitVec w) (hm : Mem.wf m = true) (h : ∀ c ∈ m, a < c.1) :
    Mem.wf (Mem.put a v m) = true := by
  unfold Mem.put
  split
  · exact hm
  · rename_i hv
    exact (Mem.wf_cons a v m).2 ⟨hv, h, hm⟩

/-- A write keeps the canonical form. -/
theorem Mem.wf_write (m : Mem w) (a : Nat) (v : BitVec w) (hm : Mem.wf m = true) : Mem.wf (Mem.write m a v) = true := by
  induction m with
  | nil => exact Mem.wf_put [] a v rfl (by simp)
  | cons c rest ih =>
    obtain ⟨k, u⟩ := c
    obtain ⟨hu, hlt, hr⟩ := (Mem.wf_cons k u rest).1 hm
    simp only [Mem.write]
    split
    · rename_i hak
      refine Mem.wf_put _ a v hm fun c hc => ?_
      rcases List.mem_cons.1 hc with rfl | hc
      · exact hak
      · exact Nat.lt_trans hak (hlt c hc)
    · split
      · rename_i _ hak
        exact Mem.wf_put _ a v hr fun c hc => hak ▸ hlt c hc
      · rename_i h1 h2
        refine (Mem.wf_cons k u _).2 ⟨hu, fun c hc => ?_, ih hr⟩
        rcases Mem.mem_write rest a v c hc with rfl | h
        · exact Nat.lt_of_le_of_ne (Nat.not_lt.1 h1) (Ne.symm h2)
        · exact hlt c h

theorem Mem.below_iff (n : Nat) (m : Mem w) : Mem.below n m = true ↔ ∀ c ∈ m, c.1 < n := by
  simp [Mem.below]

/-- A write below a bound keeps every listed index below it. -/
theorem Mem.below_write (n : Nat) (m : Mem w) (a : Nat) (v : BitVec w) (hm : Mem.below n m = true) (ha : a < n) :
    Mem.below n (Mem.write m a v) = true := by
  rw [Mem.below_iff] at *
  intro c hc
  rcases Mem.mem_write m a v c hc with rfl | h
  · exact ha
  · exact hm c h

@[simp] theorem Mem.length_readRange (m : Mem w) (off n : Nat) : (Mem.readRange m off n).length = n := by
  induction n generalizing off with
  | zero => rfl
  | succ n ih => simp [Mem.readRange, ih]

/-- The element of a range is the element at its index. -/
theorem Mem.getD_readRange (m : Mem w) (off n i : Nat) (d : BitVec w) (hi : i < n) :
    (Mem.readRange m off n).getD i d = Mem.read m (off + i) := by
  induction n generalizing off i with
  | zero => omega
  | succ n ih =>
    cases i with
    | zero => rfl
    | succ i =>
      rw [Mem.readRange, List.getD_cons_succ, ih (off + 1) i (by omega)]
      congr 1
      omega

/-- Two arrays with the same elements in a range give the same range. -/
theorem Mem.readRange_congr (m m' : Mem w) (off n : Nat) (h : ∀ i, i < n → Mem.read m (off + i) = Mem.read m' (off + i)) :
    Mem.readRange m off n = Mem.readRange m' off n := by
  induction n generalizing off with
  | zero => rfl
  | succ n ih =>
    rw [Mem.readRange, Mem.readRange, ih (off + 1) fun i hi => ?_]
    · rw [show Mem.read m off = Mem.read m' off from h 0 (by omega)]
    · have := h (i + 1) (by omega)
      rwa [show off + (i + 1) = off + 1 + i by omega] at this

/-- A range is two ranges, one after the other. -/
theorem Mem.readRange_add (m : Mem w) (off a b : Nat) :
    Mem.readRange m off (a + b) = Mem.readRange m off a ++ Mem.readRange m (off + a) b := by
  induction a generalizing off with
  | zero => simp [Mem.readRange]
  | succ a ih =>
    rw [show a + 1 + b = (a + b) + 1 by omega, Mem.readRange, Mem.readRange, ih (off + 1)]
    simp [show off + 1 + a = off + (a + 1) by omega]

/-- A range holds a string made of two exactly where its parts hold the two. -/
theorem Mem.readRange_append_iff (m : Mem w) (off : Nat) (a b : List (BitVec w)) :
    Mem.readRange m off (a ++ b).length = a ++ b ↔
      Mem.readRange m off a.length = a ∧ Mem.readRange m (off + a.length) b.length = b := by
  rw [List.length_append, Mem.readRange_add]
  exact ⟨fun h => List.append_inj h (by simp), fun h => by rw [h.1, h.2]⟩

/-- A range of one element. -/
@[simp] theorem Mem.readRange_one (m : Mem w) (off : Nat) (v : BitVec w) :
    Mem.readRange m off 1 = [v] ↔ Mem.read m off = v := by
  simp [Mem.readRange]

/-- A part of a range is the range of the part. -/
theorem Mem.readRange_slice (m : Mem w) (off n i k : Nat) (h : i + k ≤ n) :
    ((Mem.readRange m off n).drop i).take k = Mem.readRange m (off + i) k := by
  obtain ⟨j, rfl⟩ : ∃ j, n = i + (k + j) := ⟨n - i - k, by omega⟩
  rw [Mem.readRange_add, Mem.readRange_add]
  simp

/-- Writing a string of elements leaves every index outside it alone. -/
theorem Mem.read_writeRange_other (m : Mem w) (off : Nat) (vs : List (BitVec w)) (a : Nat)
    (h : a < off ∨ off + vs.length ≤ a) : Mem.read (Mem.writeRange m off vs) a = Mem.read m a := by
  induction vs generalizing m off with
  | nil => rfl
  | cons v rest ih =>
    simp only [List.length_cons] at h
    rw [Mem.writeRange, ih _ _ (by omega), Mem.read_write_other _ _ _ _ (by omega)]

theorem Mem.wf_writeRange (m : Mem w) (off : Nat) (vs : List (BitVec w)) (hm : Mem.wf m = true) :
    Mem.wf (Mem.writeRange m off vs) = true := by
  induction vs generalizing m off with
  | nil => exact hm
  | cons v rest ih => exact ih _ _ (Mem.wf_write m off v hm)

theorem Mem.below_writeRange (n : Nat) (m : Mem w) (off : Nat) (vs : List (BitVec w)) (hm : Mem.below n m = true)
    (h : off + vs.length ≤ n) : Mem.below n (Mem.writeRange m off vs) = true := by
  induction vs generalizing m off with
  | nil => exact hm
  | cons v rest ih =>
    simp only [List.length_cons] at h
    exact ih _ _ (Mem.below_write n m off v hm (by omega)) (by omega)

/-- Writing one string after another is writing them joined. -/
theorem Mem.writeRange_append (m : Mem w) (off : Nat) (a b : List (BitVec w)) :
    Mem.writeRange m off (a ++ b) = Mem.writeRange (Mem.writeRange m off a) (off + a.length) b := by
  induction a generalizing m off with
  | nil => rfl
  | cons v a ih =>
    rw [List.cons_append, Mem.writeRange, Mem.writeRange, ih, List.length_cons]
    congr 1
    omega

/-- Reading the range just written gives the elements written. -/
theorem Mem.readRange_writeRange (m : Mem w) (hm : Mem.wf m = true) (off : Nat) (vs : List (BitVec w)) :
    Mem.readRange (Mem.writeRange m off vs) off vs.length = vs := by
  induction vs generalizing m off with
  | nil => rfl
  | cons v rest ih =>
    rw [Mem.writeRange, List.length_cons, Mem.readRange, ih _ (Mem.wf_write m off v hm),
      Mem.read_writeRange_other _ _ _ _ (by omega), Mem.read_write_same m hm]

/-- Reading an element of the range just written. -/
theorem Mem.read_writeRange_same (m : Mem w) (hm : Mem.wf m = true) (off : Nat) (vs : List (BitVec w)) (i : Nat)
    (d : BitVec w) (hi : i < vs.length) : Mem.read (Mem.writeRange m off vs) (off + i) = vs.getD i d := by
  rw [← Mem.getD_readRange _ off vs.length i d hi, Mem.readRange_writeRange m hm]

end Sys2Proof.Machine
end

