-- ==== Sys2Proof/Laws/Ops.lean ====
section
/-! SUPPORT. What each shared operation can do, said once: the run of a command, raising, the reads and the span. -/

namespace Sys2Proof.Machine

@[simp] theorem andThen_go (s : State) (f : State → Run) : (Run.go s).andThen f = f s := rfl
@[simp] theorem andThen_ended (s : State) (f : State → Run) : (Run.ended s).andThen f = .ended s := rfl
@[simp] theorem andThen_fault (r : Fault) (f : State → Run) : (Run.fault r).andThen f = .fault r := rfl

@[simp] theorem finish_go (s : State) : (Run.go s).finish = .next (s.withOutcome .ok) := rfl
@[simp] theorem finish_ended (s : State) : (Run.ended s).finish = .next s := rfl
@[simp] theorem finish_fault (r : Fault) : (Run.fault r).finish = .fault r := rfl

@[simp] theorem completed_eq (s : State) : completed s = .next (s.withOutcome .ok) := rfl

@[simp] theorem afterNext_next (s : State) (f : State → Host.Outcome State Fault Refusal) :
    afterNext (.next s) f = f s := rfl

/-- The conditional of a run is pushed through its end. -/
theorem finish_ite (c : Prop) [Decidable c] (r r' : Run) :
    (if c then r else r').finish = if c then r.finish else r'.finish := by
  split <;> rfl

/-- A command that answers a next state ran to its end there, or had ended there. -/
theorem finish_next {r : Run} {t : State} (h : r.finish = .next t) :
    (∃ s, r = .go s ∧ t = s.withOutcome .ok) ∨ r = .ended t := by
  cases r with
  | go s =>
    injection h with h
    exact .inl ⟨s, rfl, h.symm⟩
  | ended s =>
    injection h with h
    exact .inr (by rw [h])
  | fault e => cases h

/-- A command is never refused. -/
theorem finish_ne_refused (r : Run) (e : Refusal) : r.finish ≠ .refused e := by
  cases r <;> simp [Run.finish]

/-- Parts in sequence go on only where each of them does. -/
theorem andThen_go_iff (r : Run) (f : State → Run) (t : State) :
    r.andThen f = .go t ↔ ∃ s, r = .go s ∧ f s = .go t := by
  cases r <;> simp [Run.andThen]

/-- Parts in sequence end in the first that ends. -/
theorem andThen_ended_iff (r : Run) (f : State → Run) (t : State) :
    r.andThen f = .ended t ↔ r = .ended t ∨ ∃ s, r = .go s ∧ f s = .ended t := by
  cases r <;> simp [Run.andThen]

/-- Parts in sequence fault in the first that faults. -/
theorem andThen_fault_iff (r : Run) (f : State → Run) (e : Fault) :
    r.andThen f = .fault e ↔ r = .fault e ∨ ∃ s, r = .go s ∧ f s = .fault e := by
  cases r <;> simp [Run.andThen]

/-- What raising leaves: the record and the outcome, over the state as it was (60_exceptions.md R226, R233). -/
theorem raise_eq (e : ErrorName) (pos ent : Nat) (s : State) :
    raise e pos ent s = .ended ((s.recordError e pos ent).withOutcome (.error e)) := rfl

/-- What flagging leaves (60_exceptions.md R224, R226). -/
theorem flagMismatch_eq (pos ent : Nat) (s : State) :
    flagMismatch pos ent s = .ended ((s.recordError .checksumMismatch pos ent).withOutcome .okFlagged) := rfl

/-- A read within the buffer's length. -/
theorem memRead_of_le {s : State} {b : Buffer} {off n : Nat} (h : off + n ≤ s.bufferLength b)
    (next : List Byte → Run) : memRead s b off n next = next (Mem.readRange (s.bufferOf b) off n) :=
  if_pos h

/-- A read past the buffer's length: R14 defines none. -/
theorem memRead_of_gt {s : State} {b : Buffer} {off n : Nat} (h : s.bufferLength b < off + n)
    (next : List Byte → Run) : memRead s b off n next = .fault .undefinedRead :=
  if_neg (Nat.not_le.2 h)

/-- An element of `M_REG` within the catalog. -/
theorem regRead_of_lt {s : State} {i : Nat} (h : i < s.cfg.catalogRegs) (next : Half → Run) :
    regRead s i next = next (Mem.read s.mReg i) :=
  if_pos h

/-- An entry of the envelope that is there whole (43_envelope.md R182). -/
theorem take_of_le {s : State} {pos n : Nat} (h : pos + n ≤ s.ilen.toNat) (ent : Nat) (next : List Byte → Run) :
    take s pos n ent next = next (Mem.readRange s.ibuf pos n) := by
  rw [take, if_neg (Nat.not_lt.2 h)]
  exact memRead_of_le (b := .ibuf) h next

/-- An entry of the envelope that is not there whole (R182, R222). -/
theorem take_of_gt {s : State} {pos n : Nat} (h : s.ilen.toNat < pos + n) (ent : Nat) (next : List Byte → Run) :
    take s pos n ent next = raise .truncatedInput pos ent s :=
  if_pos h

/-- An entry of a Modbus message that is there whole (44_modbus.md R195). -/
theorem mtake_of_le {s : State} {pos n : Nat} (h : pos + n ≤ s.mSlen.toNat)
    (hb : s.mBase.toNat + pos + n ≤ s.ilen.toNat) (ent : Nat) (e : ErrorName) (next : List Byte → Run) :
    mtake s pos n ent e next = next (Mem.readRange s.ibuf (s.mBase.toNat + pos) n) := by
  rw [mtake, if_neg (Nat.not_lt.2 h)]
  exact memRead_of_le (b := .ibuf) hb next

/-- An entry of a Modbus message that is not there whole (R195, R222). -/
theorem mtake_of_gt {s : State} {pos n : Nat} (h : s.mSlen.toNat < pos + n) (ent : Nat) (e : ErrorName)
    (next : List Byte → Run) : mtake s pos n ent e next = raise e pos ent s :=
  if_pos h

/-- All a buffer read can do. -/
theorem memRead_cases (s : State) (b : Buffer) (off n : Nat) (next : List Byte → Run) :
    (off + n ≤ s.bufferLength b ∧ memRead s b off n next = next (Mem.readRange (s.bufferOf b) off n)) ∨
    (s.bufferLength b < off + n ∧ memRead s b off n next = .fault .undefinedRead) := by
  rcases Nat.lt_or_ge (s.bufferLength b) (off + n) with h | h
  · exact .inr ⟨h, memRead_of_gt h next⟩
  · exact .inl ⟨h, memRead_of_le h next⟩

/-- All the envelope parser's read can do. -/
theorem take_cases (s : State) (pos n ent : Nat) (next : List Byte → Run) :
    (pos + n ≤ s.ilen.toNat ∧ take s pos n ent next = next (Mem.readRange s.ibuf pos n)) ∨
    (s.ilen.toNat < pos + n ∧ take s pos n ent next = raise .truncatedInput pos ent s) := by
  rcases Nat.lt_or_ge s.ilen.toNat (pos + n) with h | h
  · exact .inr ⟨h, take_of_gt h ent next⟩
  · exact .inl ⟨h, take_of_le h ent next⟩

/-- All the Modbus parser's read can do. -/
theorem mtake_cases (s : State) (pos n ent : Nat) (e : ErrorName) (next : List Byte → Run) :
    (pos + n ≤ s.mSlen.toNat ∧ s.mBase.toNat + pos + n ≤ s.ilen.toNat ∧
      mtake s pos n ent e next = next (Mem.readRange s.ibuf (s.mBase.toNat + pos) n)) ∨
    (s.mSlen.toNat < pos + n ∧ mtake s pos n ent e next = raise e pos ent s) ∨
    (pos + n ≤ s.mSlen.toNat ∧ s.ilen.toNat < s.mBase.toNat + pos + n ∧
      mtake s pos n ent e next = .fault .undefinedRead) := by
  rcases Nat.lt_or_ge s.mSlen.toNat (pos + n) with h | h
  · exact .inr (.inl ⟨h, mtake_of_gt h ent e next⟩)
  · rcases Nat.lt_or_ge s.ilen.toNat (s.mBase.toNat + pos + n) with h' | h'
    · refine .inr (.inr ⟨h, h', ?_⟩)
      rw [mtake, if_neg (Nat.not_lt.2 h)]
      exact memRead_of_gt (b := .ibuf) h' next
    · exact .inl ⟨h, h', mtake_of_le h h' ent e next⟩

/-- The payload span, where there is one (44_modbus.md R191). -/
theorem selectSpan_payload {s : State} (h : s.flag .eHaspl = true) (op : Byte) (isResponse : Bool) :
    selectSpan op 0 isResponse s = .go (s.openSpan isResponse s.ePoff s.ePlen) := by
  simp [selectSpan, h]

/-- No payload span (R191, R229). -/
theorem selectSpan_noPayload {s : State} (h : s.flag .eHaspl = false) (op : Byte) (isResponse : Bool) :
    selectSpan op 0 isResponse s = raise .sequenceError 0 0 s := by
  simp [selectSpan, h]

/-- The whole input buffer (R191). -/
theorem selectSpan_whole (s : State) (op : Byte) (isResponse : Bool) :
    selectSpan op 1 isResponse s = .go (s.openSpan isResponse 0 s.ilen) := by
  simp [selectSpan]

/-- The output of a read-out command in range (42_system_and_buffers.md R157 to R159). -/
theorem readByteOut_of_lt {s : State} {b : Buffer} {a len : Nat} (h : a < len) (hb : a < s.bufferLength b) :
    readByteOut s b a len = .go { s with rdata := zext32 (Mem.read (s.bufferOf b) a) } := by
  rw [readByteOut, if_neg (Nat.not_le.2 h), memRead_of_le (by omega)]
  rfl

/-- A read-out command out of range (R67). -/
theorem readByteOut_of_ge {s : State} {b : Buffer} {a len : Nat} (h : len ≤ a) :
    readByteOut s b a len = raise .truncatedInput a 0 s :=
  if_pos h

end Sys2Proof.Machine
end

