-- ==== Sys2Proof/Laws/Envelope.lean ====
section
/-! SUPPORT. What each state of the envelope FSM does, said once (43_envelope.md R172 to R181): the state it goes on in,
or the error it raises. -/

namespace Sys2Proof.Machine

variable {s : State}

/-- The right start delimiter (R172). -/
theorem envelopeStart_go (h : 1 ≤ s.ilen.toNat) (hb : Mem.read s.ibuf 0 = startDelim) :
    envelopeStart s = .go (State.envelopeAt { s with eStart := startDelim } 1 .expectLength) := by
  rw [envelopeStart, take_of_le h]
  show (if Mem.read s.ibuf 0 ≠ startDelim then _ else _) = _
  rw [if_neg (by simp [hb])]
  simp only [byteAt, Mem.readRange, List.getD_cons_zero, hb]

/-- Another start byte (R172, R227). -/
theorem envelopeStart_bad (h : 1 ≤ s.ilen.toNat) (hb : Mem.read s.ibuf 0 ≠ startDelim) :
    envelopeStart s = raise .badDelimiter 0 0 { s with eStart := Mem.read s.ibuf 0 } := by
  rw [envelopeStart, take_of_le h]
  exact if_pos hb

/-- No start byte (R172). -/
theorem envelopeStart_short (h : s.ilen.toNat < 1) : envelopeStart s = raise .truncatedInput 0 0 s := take_of_gt h _ _

/-- R173. -/
theorem envelopeLength_go (h : 3 ≤ s.ilen.toNat) :
    envelopeLength s =
      .go (State.envelopeAt { s with eLen := ofLE16 (Mem.readRange s.ibuf 1 2) } 2 .expectControl) := take_of_le h _ _

theorem envelopeLength_short (h : s.ilen.toNat < 3) : envelopeLength s = raise .truncatedInput 1 1 s := take_of_gt h _ _

/-- R174. -/
theorem envelopeControl_go (h : 5 ≤ s.ilen.toNat) :
    envelopeControl s =
      .go (State.envelopeAt { s with eCtrl := ofBE16 (Mem.readRange s.ibuf 3 2) } 3 .expectCounter) := take_of_le h _ _

theorem envelopeControl_short (h : s.ilen.toNat < 5) : envelopeControl s = raise .truncatedInput 3 2 s :=
  take_of_gt h _ _

/-- R175. -/
theorem envelopeCounter_go (h : 7 ≤ s.ilen.toNat) :
    envelopeCounter s =
      .go (State.envelopeAt { s with eCnt := ofBE16 (Mem.readRange s.ibuf 5 2) } 4 .expectSerial) := take_of_le h _ _

theorem envelopeCounter_short (h : s.ilen.toNat < 7) : envelopeCounter s = raise .truncatedInput 5 3 s :=
  take_of_gt h _ _

/-- R176. -/
theorem envelopeSerial_go (h : 11 ≤ s.ilen.toNat) :
    envelopeSerial s =
      .go (State.envelopeAt { s with eSer := ofLE32 (Mem.readRange s.ibuf 7 4) } 5 .expectData) := take_of_le h _ _

theorem envelopeSerial_short (h : s.ilen.toNat < 11) : envelopeSerial s = raise .truncatedInput 7 4 s :=
  take_of_gt h _ _

/-- R177. -/
theorem envelopeData_go (h : s.cfg.payloadOffset ≤ s.ilen.toNat) :
    envelopeData s =
      .go (State.envelopeAt { s with eData := Mem.writeRange s.eData 0 (Mem.readRange s.ibuf hdrLen s.cfg.dataLen) }
        6 .expectPayload) := take_of_le h _ _

theorem envelopeData_short (h : s.ilen.toNat < s.cfg.payloadOffset) :
    envelopeData s = raise .truncatedInput hdrLen 5 s := take_of_gt h _ _

/-- The state after the payload's extent is known (R178). -/
def State.envelopeSpanned (s : State) : State :=
  State.envelopeAt (State.setFlag
    { s with ePoff := BitVec.ofNat 16 s.cfg.payloadOffset, ePlen := BitVec.ofNat 16 s.payloadLen } .eHaspl true)
    7 .expectChecksum

/-- R178: the payload lies in the input buffer. -/
theorem envelopePayload_go (hl : s.cfg.lenBias ≤ s.eLen.toNat) (h : s.cfg.payloadOffset + s.payloadLen ≤ s.ilen.toNat) :
    envelopePayload s = .go s.envelopeSpanned := by
  rw [envelopePayload, if_neg (Nat.not_lt.2 hl), take_of_le h]
  rfl

/-- R178: a length field below the bias (60_exceptions.md R225). -/
theorem envelopePayload_small (hl : s.eLen.toNat < s.cfg.lenBias) :
    envelopePayload s = raise .malformedSchema s.cfg.payloadOffset 6 s := if_pos hl

theorem envelopePayload_short (hl : s.cfg.lenBias ≤ s.eLen.toNat)
    (h : s.ilen.toNat < s.cfg.payloadOffset + s.payloadLen) :
    envelopePayload s = raise .truncatedInput s.cfg.payloadOffset 6 s := by
  rw [envelopePayload, if_neg (Nat.not_lt.2 hl), take_of_gt h]

/-- The checksum over the bytes between the start delimiter and the checksum byte (41_sum8.md R141). -/
def State.envelopeSum (s : State) : Byte :=
  sum8 (Mem.readRange s.ibuf 1 (s.cfg.payloadOffset - 1 + s.payloadLen))

/-- The state after the checksum byte is decoded and checked (R179). -/
def State.envelopeChecked (s : State) : State :=
  State.envelopeAt (State.setFlag
    { s with eChk := Mem.read s.ibuf (s.cfg.payloadOffset + s.payloadLen), sum := s.envelopeSum } .chkBad
    (s.envelopeSum != Mem.read s.ibuf (s.cfg.payloadOffset + s.payloadLen))) 8 .expectEnd

/-- R179. -/
theorem envelopeChecksum_go (h : s.cfg.payloadOffset + s.payloadLen + 1 ≤ s.ilen.toNat) :
    envelopeChecksum s = .go s.envelopeChecked := by
  have hp : 11 ≤ s.cfg.payloadOffset := Nat.le_add_right ..
  rw [envelopeChecksum, take_of_le h, memRead_of_le (b := .ibuf)
    (show 1 + (s.cfg.payloadOffset - 1 + s.payloadLen) ≤ s.ilen.toNat by omega)]
  rfl

theorem envelopeChecksum_short (h : s.ilen.toNat < s.cfg.payloadOffset + s.payloadLen + 1) :
    envelopeChecksum s = raise .truncatedInput (s.cfg.payloadOffset + s.payloadLen) 7 s := take_of_gt h _ _

/-- The state after the end delimiter is decoded (R180). -/
def State.envelopeEnded (s : State) : State := State.envelopeAt { s with eEnd := endDelim } 9 .done

/-- R180. -/
theorem envelopeEnd_go (h : s.cfg.payloadOffset + 1 + s.payloadLen + 1 ≤ s.ilen.toNat)
    (hb : Mem.read s.ibuf (s.cfg.payloadOffset + 1 + s.payloadLen) = endDelim) :
    envelopeEnd s = .go s.envelopeEnded := by
  rw [envelopeEnd, take_of_le h]
  show (if Mem.read s.ibuf (s.cfg.payloadOffset + 1 + s.payloadLen) ≠ endDelim then _ else _) = _
  rw [if_neg (by simp [hb])]
  simp only [byteAt, Mem.readRange, List.getD_cons_zero, hb]
  rfl

/-- Another end byte (R180, R227). -/
theorem envelopeEnd_bad (h : s.cfg.payloadOffset + 1 + s.payloadLen + 1 ≤ s.ilen.toNat)
    (hb : Mem.read s.ibuf (s.cfg.payloadOffset + 1 + s.payloadLen) ≠ endDelim) :
    envelopeEnd s = raise .badDelimiter (s.cfg.payloadOffset + 1 + s.payloadLen) 8
      { s with eEnd := Mem.read s.ibuf (s.cfg.payloadOffset + 1 + s.payloadLen) } := by
  rw [envelopeEnd, take_of_le h]
  exact if_pos hb

theorem envelopeEnd_short (h : s.ilen.toNat < s.cfg.payloadOffset + 1 + s.payloadLen + 1) :
    envelopeEnd s = raise .truncatedInput (s.cfg.payloadOffset + 1 + s.payloadLen) 8 s := take_of_gt h _ _

/-- The state at the end of a parse (R181). -/
def State.envelopeFinished (s : State) : State :=
  State.setFlag
    { s with
      eToff := BitVec.ofNat 16 (s.cfg.payloadOffset + 2 + s.payloadLen)
      eTlen := BitVec.ofNat 16 (s.ilen.toNat - (s.cfg.payloadOffset + 2 + s.payloadLen)) } .eValid true

/-- R181: the deferred flag comes last. -/
theorem envelopeDone_eq (s : State) :
    envelopeDone s = if s.envelopeFinished.flag .chkBad then
      flagMismatch (s.cfg.payloadOffset + s.payloadLen) 7 s.envelopeFinished else .go s.envelopeFinished := rfl

/-- `EP.RUN` as the sequence of its states, in the order they run (R171). -/
theorem execEpRun_eq (s : State) :
    exec .epRun s = ((envelopeStart s.envelopeClear).andThen fun s => (envelopeLength s).andThen fun s =>
      (envelopeControl s).andThen fun s => (envelopeCounter s).andThen fun s => (envelopeSerial s).andThen fun s =>
      (envelopeData s).andThen fun s => (envelopePayload s).andThen fun s => (envelopeChecksum s).andThen fun s =>
      (envelopeEnd s).andThen fun s => (envelopeDone s).andThen .go).finish := rfl

/-- What `EP.RUN` clears of `STATUS` (R171). -/
theorem status_envelopeClear (s : State) : s.envelopeClear.status = s.status &&& 0xF8 := by
  simp only [State.envelopeClear, State.setFlag, Flag.mask, Flag.bit, Bool.false_eq_true, if_false]
  rw [BitVec.and_assoc, BitVec.and_assoc]
  rfl

/-- The state in which the payload is looked for: the header and the data field decoded (R172 to R177). -/
def State.envelopeHeader (s : State) : State :=
  State.envelopeAt
    { s.envelopeClear with
      eStart := startDelim
      eLen := ofLE16 (Mem.readRange s.ibuf 1 2)
      eCtrl := ofBE16 (Mem.readRange s.ibuf 3 2)
      eCnt := ofBE16 (Mem.readRange s.ibuf 5 2)
      eSer := ofLE32 (Mem.readRange s.ibuf 7 4)
      eData := Mem.writeRange [] 0 (Mem.readRange s.ibuf hdrLen s.cfg.dataLen) } 6 .expectPayload

/-- `EP.RUN` on a buffer that has the header and the data field whole (R172 to R177). -/
theorem execEpRun_header (h : s.cfg.payloadOffset ≤ s.ilen.toNat) (hb : Mem.read s.ibuf 0 = startDelim) :
    exec .epRun s = ((envelopePayload s.envelopeHeader).andThen fun s => (envelopeChecksum s).andThen fun s =>
      (envelopeEnd s).andThen fun s => (envelopeDone s).andThen .go).finish := by
  have hp : 11 ≤ s.cfg.payloadOffset := Nat.le_add_right ..
  have h1 : 1 ≤ s.envelopeClear.ilen.toNat := (by omega : 1 ≤ s.ilen.toNat)
  rw [execEpRun_eq, envelopeStart_go h1 hb, andThen_go, envelopeLength_go (by simp; omega), andThen_go,
    envelopeControl_go (by simp; omega), andThen_go, envelopeCounter_go (by simp; omega), andThen_go,
    envelopeSerial_go (by simp; omega), andThen_go, envelopeData_go (by simpa using h), andThen_go]
  rfl

/-! What these states keep. -/

@[simp] theorem envelopeSpanned_cfg (s : State) : s.envelopeSpanned.cfg = s.cfg := rfl
@[simp] theorem envelopeSpanned_ilen (s : State) : s.envelopeSpanned.ilen = s.ilen := rfl
@[simp] theorem envelopeSpanned_ibuf (s : State) : s.envelopeSpanned.ibuf = s.ibuf := rfl
@[simp] theorem envelopeSpanned_eLen (s : State) : s.envelopeSpanned.eLen = s.eLen := rfl
@[simp] theorem envelopeSpanned_payloadLen (s : State) : s.envelopeSpanned.payloadLen = s.payloadLen := rfl
@[simp] theorem envelopeChecked_cfg (s : State) : s.envelopeChecked.cfg = s.cfg := rfl
@[simp] theorem envelopeChecked_ilen (s : State) : s.envelopeChecked.ilen = s.ilen := rfl
@[simp] theorem envelopeChecked_ibuf (s : State) : s.envelopeChecked.ibuf = s.ibuf := rfl
@[simp] theorem envelopeChecked_eLen (s : State) : s.envelopeChecked.eLen = s.eLen := rfl
@[simp] theorem envelopeChecked_payloadLen (s : State) : s.envelopeChecked.payloadLen = s.payloadLen := rfl
@[simp] theorem envelopeEnded_cfg (s : State) : s.envelopeEnded.cfg = s.cfg := rfl
@[simp] theorem envelopeEnded_ilen (s : State) : s.envelopeEnded.ilen = s.ilen := rfl
@[simp] theorem envelopeEnded_ibuf (s : State) : s.envelopeEnded.ibuf = s.ibuf := rfl
@[simp] theorem envelopeEnded_eLen (s : State) : s.envelopeEnded.eLen = s.eLen := rfl
@[simp] theorem envelopeEnded_payloadLen (s : State) : s.envelopeEnded.payloadLen = s.payloadLen := rfl
@[simp] theorem envelopeFinished_cfg (s : State) : s.envelopeFinished.cfg = s.cfg := rfl
@[simp] theorem envelopeFinished_ilen (s : State) : s.envelopeFinished.ilen = s.ilen := rfl
@[simp] theorem envelopeFinished_ibuf (s : State) : s.envelopeFinished.ibuf = s.ibuf := rfl
@[simp] theorem envelopeFinished_eLen (s : State) : s.envelopeFinished.eLen = s.eLen := rfl
@[simp] theorem envelopeFinished_payloadLen (s : State) : s.envelopeFinished.payloadLen = s.payloadLen := rfl
@[simp] theorem envelopeHeader_cfg (s : State) : s.envelopeHeader.cfg = s.cfg := rfl
@[simp] theorem envelopeHeader_ilen (s : State) : s.envelopeHeader.ilen = s.ilen := rfl
@[simp] theorem envelopeHeader_ibuf (s : State) : s.envelopeHeader.ibuf = s.ibuf := rfl
@[simp] theorem envelopeHeader_eLen (s : State) : s.envelopeHeader.eLen = ofLE16 (Mem.readRange s.ibuf 1 2) := rfl

@[simp] theorem flag_envelopeSpanned (s : State) (f : Flag) :
    s.envelopeSpanned.flag f = if f = .eHaspl then true else s.flag f := by
  rw [State.envelopeSpanned, State.flag_envelopeAt, State.flag_setFlag]; rfl

@[simp] theorem flag_envelopeChecked (s : State) (f : Flag) :
    s.envelopeChecked.flag f =
      if f = .chkBad then s.envelopeSum != Mem.read s.ibuf (s.cfg.payloadOffset + s.payloadLen) else s.flag f := by
  rw [State.envelopeChecked, State.flag_envelopeAt, State.flag_setFlag]; rfl

@[simp] theorem flag_envelopeEnded (s : State) (f : Flag) : s.envelopeEnded.flag f = s.flag f := rfl

@[simp] theorem flag_envelopeFinished (s : State) (f : Flag) :
    s.envelopeFinished.flag f = if f = .eValid then true else s.flag f := by
  rw [State.envelopeFinished, State.flag_setFlag]; rfl

@[simp] theorem flag_envelopeHeader (s : State) (f : Flag) :
    s.envelopeHeader.flag f = if f = .eValid ∨ f = .eHaspl ∨ f = .chkBad then false else s.flag f :=
  State.flag_envelopeClear s f

@[simp] theorem envelopeHeader_sum (s : State) : s.envelopeHeader.sum = s.sum := rfl
@[simp] theorem envelopeHeader_eState (s : State) : s.envelopeHeader.eState = 7 := rfl
@[simp] theorem envelopeHeader_eStart (s : State) : s.envelopeHeader.eStart = startDelim := rfl
@[simp] theorem envelopeHeader_eCtrl (s : State) : s.envelopeHeader.eCtrl = ofBE16 (Mem.readRange s.ibuf 3 2) := rfl
@[simp] theorem envelopeHeader_eCnt (s : State) : s.envelopeHeader.eCnt = ofBE16 (Mem.readRange s.ibuf 5 2) := rfl
@[simp] theorem envelopeHeader_eSer (s : State) : s.envelopeHeader.eSer = ofLE32 (Mem.readRange s.ibuf 7 4) := rfl
@[simp] theorem envelopeHeader_ePoff (s : State) : s.envelopeHeader.ePoff = 0 := rfl
@[simp] theorem envelopeHeader_ePlen (s : State) : s.envelopeHeader.ePlen = 0 := rfl
@[simp] theorem envelopeHeader_eChk (s : State) : s.envelopeHeader.eChk = 0 := rfl
@[simp] theorem envelopeHeader_eEnd (s : State) : s.envelopeHeader.eEnd = 0 := rfl
@[simp] theorem envelopeHeader_eToff (s : State) : s.envelopeHeader.eToff = 0 := rfl
@[simp] theorem envelopeHeader_eTlen (s : State) : s.envelopeHeader.eTlen = 0 := rfl
@[simp] theorem envelopeHeader_eNent (s : State) : s.envelopeHeader.eNent = 6 := rfl
@[simp] theorem envelopeHeader_eData (s : State) :
    s.envelopeHeader.eData = Mem.writeRange [] 0 (Mem.readRange s.ibuf hdrLen s.cfg.dataLen) := rfl
@[simp] theorem envelopeSpanned_sum (s : State) : s.envelopeSpanned.sum = s.sum := rfl
@[simp] theorem envelopeSpanned_eState (s : State) : s.envelopeSpanned.eState = 8 := rfl
@[simp] theorem envelopeSpanned_eStart (s : State) : s.envelopeSpanned.eStart = s.eStart := rfl
@[simp] theorem envelopeSpanned_eCtrl (s : State) : s.envelopeSpanned.eCtrl = s.eCtrl := rfl
@[simp] theorem envelopeSpanned_eCnt (s : State) : s.envelopeSpanned.eCnt = s.eCnt := rfl
@[simp] theorem envelopeSpanned_eSer (s : State) : s.envelopeSpanned.eSer = s.eSer := rfl
@[simp] theorem envelopeSpanned_ePoff (s : State) : s.envelopeSpanned.ePoff = BitVec.ofNat 16 s.cfg.payloadOffset := rfl
@[simp] theorem envelopeSpanned_ePlen (s : State) : s.envelopeSpanned.ePlen = BitVec.ofNat 16 s.payloadLen := rfl
@[simp] theorem envelopeSpanned_eChk (s : State) : s.envelopeSpanned.eChk = s.eChk := rfl
@[simp] theorem envelopeSpanned_eEnd (s : State) : s.envelopeSpanned.eEnd = s.eEnd := rfl
@[simp] theorem envelopeSpanned_eToff (s : State) : s.envelopeSpanned.eToff = s.eToff := rfl
@[simp] theorem envelopeSpanned_eTlen (s : State) : s.envelopeSpanned.eTlen = s.eTlen := rfl
@[simp] theorem envelopeSpanned_eNent (s : State) : s.envelopeSpanned.eNent = 7 := rfl
@[simp] theorem envelopeSpanned_eData (s : State) : s.envelopeSpanned.eData = s.eData := rfl
@[simp] theorem envelopeChecked_sum (s : State) : s.envelopeChecked.sum = s.envelopeSum := rfl
@[simp] theorem envelopeChecked_eState (s : State) : s.envelopeChecked.eState = 9 := rfl
@[simp] theorem envelopeChecked_eStart (s : State) : s.envelopeChecked.eStart = s.eStart := rfl
@[simp] theorem envelopeChecked_eCtrl (s : State) : s.envelopeChecked.eCtrl = s.eCtrl := rfl
@[simp] theorem envelopeChecked_eCnt (s : State) : s.envelopeChecked.eCnt = s.eCnt := rfl
@[simp] theorem envelopeChecked_eSer (s : State) : s.envelopeChecked.eSer = s.eSer := rfl
@[simp] theorem envelopeChecked_ePoff (s : State) : s.envelopeChecked.ePoff = s.ePoff := rfl
@[simp] theorem envelopeChecked_ePlen (s : State) : s.envelopeChecked.ePlen = s.ePlen := rfl
@[simp] theorem envelopeChecked_eChk (s : State) :
    s.envelopeChecked.eChk = Mem.read s.ibuf (s.cfg.payloadOffset + s.payloadLen) := rfl
@[simp] theorem envelopeChecked_eEnd (s : State) : s.envelopeChecked.eEnd = s.eEnd := rfl
@[simp] theorem envelopeChecked_eToff (s : State) : s.envelopeChecked.eToff = s.eToff := rfl
@[simp] theorem envelopeChecked_eTlen (s : State) : s.envelopeChecked.eTlen = s.eTlen := rfl
@[simp] theorem envelopeChecked_eNent (s : State) : s.envelopeChecked.eNent = 8 := rfl
@[simp] theorem envelopeChecked_eData (s : State) : s.envelopeChecked.eData = s.eData := rfl
@[simp] theorem envelopeEnded_sum (s : State) : s.envelopeEnded.sum = s.sum := rfl
@[simp] theorem envelopeEnded_eState (s : State) : s.envelopeEnded.eState = 10 := rfl
@[simp] theorem envelopeEnded_eStart (s : State) : s.envelopeEnded.eStart = s.eStart := rfl
@[simp] theorem envelopeEnded_eCtrl (s : State) : s.envelopeEnded.eCtrl = s.eCtrl := rfl
@[simp] theorem envelopeEnded_eCnt (s : State) : s.envelopeEnded.eCnt = s.eCnt := rfl
@[simp] theorem envelopeEnded_eSer (s : State) : s.envelopeEnded.eSer = s.eSer := rfl
@[simp] theorem envelopeEnded_ePoff (s : State) : s.envelopeEnded.ePoff = s.ePoff := rfl
@[simp] theorem envelopeEnded_ePlen (s : State) : s.envelopeEnded.ePlen = s.ePlen := rfl
@[simp] theorem envelopeEnded_eChk (s : State) : s.envelopeEnded.eChk = s.eChk := rfl
@[simp] theorem envelopeEnded_eEnd (s : State) : s.envelopeEnded.eEnd = endDelim := rfl
@[simp] theorem envelopeEnded_eToff (s : State) : s.envelopeEnded.eToff = s.eToff := rfl
@[simp] theorem envelopeEnded_eTlen (s : State) : s.envelopeEnded.eTlen = s.eTlen := rfl
@[simp] theorem envelopeEnded_eNent (s : State) : s.envelopeEnded.eNent = 9 := rfl
@[simp] theorem envelopeEnded_eData (s : State) : s.envelopeEnded.eData = s.eData := rfl
@[simp] theorem envelopeFinished_sum (s : State) : s.envelopeFinished.sum = s.sum := rfl
@[simp] theorem envelopeFinished_eState (s : State) : s.envelopeFinished.eState = s.eState := rfl
@[simp] theorem envelopeFinished_eStart (s : State) : s.envelopeFinished.eStart = s.eStart := rfl
@[simp] theorem envelopeFinished_eCtrl (s : State) : s.envelopeFinished.eCtrl = s.eCtrl := rfl
@[simp] theorem envelopeFinished_eCnt (s : State) : s.envelopeFinished.eCnt = s.eCnt := rfl
@[simp] theorem envelopeFinished_eSer (s : State) : s.envelopeFinished.eSer = s.eSer := rfl
@[simp] theorem envelopeFinished_ePoff (s : State) : s.envelopeFinished.ePoff = s.ePoff := rfl
@[simp] theorem envelopeFinished_ePlen (s : State) : s.envelopeFinished.ePlen = s.ePlen := rfl
@[simp] theorem envelopeFinished_eChk (s : State) : s.envelopeFinished.eChk = s.eChk := rfl
@[simp] theorem envelopeFinished_eEnd (s : State) : s.envelopeFinished.eEnd = s.eEnd := rfl
@[simp] theorem envelopeFinished_eToff (s : State) :
    s.envelopeFinished.eToff = BitVec.ofNat 16 (s.cfg.payloadOffset + 2 + s.payloadLen) := rfl
@[simp] theorem envelopeFinished_eTlen (s : State) :
    s.envelopeFinished.eTlen = BitVec.ofNat 16 (s.ilen.toNat - (s.cfg.payloadOffset + 2 + s.payloadLen)) := rfl
@[simp] theorem envelopeFinished_eNent (s : State) : s.envelopeFinished.eNent = s.eNent := rfl
@[simp] theorem envelopeFinished_eData (s : State) : s.envelopeFinished.eData = s.eData := rfl

end Sys2Proof.Machine
end

