-- ==== Sys2Proof/Laws/Modbus.lean ====
section
/-! SUPPORT. What the parts of the Modbus parsers do, said once (44_modbus.md R191 to R202). -/

namespace Sys2Proof.Machine

variable {s : State}

/-- A string at a span offset, where the span holds this string (R191). -/
theorem State.holdsSpan.readRange_eq {src : Byte} {bytes : List Byte} (h : s.holdsSpan src bytes) (pos n : Nat)
    (hn : pos + n ≤ bytes.length) :
    Mem.readRange s.ibuf ((s.spanBase src).toNat + pos) n = (bytes.drop pos).take n := by
  rw [← Mem.readRange_slice _ _ bytes.length _ _ hn, h.2.2.2]

/-- The state a Modbus parse begins in (R191, R193, R194). -/
def State.modbusOpened (s : State) (isResponse : Bool) (src : Byte) : State :=
  { s.openSpan isResponse (s.spanBase src) (s.spanLength src) with mState := ModbusState.expectFunctionCode.code }

/-- With a span, a parse begins (R191). -/
theorem modbusStart_go {src : Byte} (h : (src = 0 ∧ s.flag .eHaspl = true) ∨ src = 1) (op : Byte) (isResponse : Bool) :
    modbusStart op src isResponse s = .go (s.modbusOpened isResponse src) := by
  rcases h with ⟨rfl, h⟩ | rfl
  · rw [modbusStart, selectSpan_payload h]; rfl
  · rw [modbusStart, selectSpan_whole]; rfl

/-- All the start of a parse can do (R191, R229, 30_encoding.md R94). -/
theorem modbusStart_cases (s : State) (op src : Byte) (isResponse : Bool) :
    (((src = 0 ∧ s.flag .eHaspl = true) ∨ src = 1) ∧
      modbusStart op src isResponse s = .go (s.modbusOpened isResponse src)) ∨
    (src = 0 ∧ s.flag .eHaspl = false ∧ modbusStart op src isResponse s = raise .sequenceError 0 0 s) ∨
    (src ≠ 0 ∧ src ≠ 1 ∧ modbusStart op src isResponse s = raise .illegalCommand 0 op.toNat s) := by
  by_cases h0 : src = 0
  · subst h0
    cases hf : s.flag .eHaspl with
    | true => exact .inl ⟨.inl ⟨rfl, rfl⟩, modbusStart_go (.inl ⟨rfl, hf⟩) op isResponse⟩
    | false => exact .inr (.inl ⟨rfl, rfl, by rw [modbusStart, selectSpan_noPayload hf]; rfl⟩)
  · by_cases h1 : src = 1
    · exact .inl ⟨.inr h1, modbusStart_go (.inr h1) op isResponse⟩
    · exact .inr (.inr ⟨h0, h1, by rw [modbusStart, selectSpan, if_neg h0, if_neg h1]; rfl⟩)

/-- The CRC over the span bytes before offset `pos` (R202). -/
def State.modbusCheck (s : State) (pos : Nat) : Half := crc16 (Mem.readRange s.ibuf s.mBase.toNat pos)

/-- The CRC field at span offset `pos`. -/
def State.modbusField (s : State) (pos : Nat) : Half := ofLE16 (Mem.readRange s.ibuf (s.mBase.toNat + pos) 2)

/-- The state at the end of a parse whose CRC field is entry `ent` at span offset `pos` (R193, R200, R201). -/
def State.modbusFinished (s : State) (pos ent : Nat) : State :=
  State.setFlag
    { State.modbusAt
        (State.setFlag { s with mCrc := s.modbusField pos, crc := s.modbusCheck pos } .crcBad
          (s.modbusCheck pos != s.modbusField pos)) (ent + 1) .done with
      mToff := BitVec.ofNat 16 (pos + 2), mTlen := BitVec.ofNat 16 (s.mSlen.toNat - (pos + 2)) } .mValid true

@[simp] theorem flag_modbusFinished (s : State) (pos ent : Nat) (f : Flag) :
    (s.modbusFinished pos ent).flag f = if f = .mValid then true else
      if f = .crcBad then s.modbusCheck pos != s.modbusField pos else s.flag f := by
  rw [State.modbusFinished, State.flag_setFlag]
  congr 1
  exact State.flag_setFlag _ _ _ _

/-- A CRC field that is there whole: the deferred flag comes last (R193, R200, R201). -/
theorem modbusCrc_whole {pos : Nat} (h : pos + 2 ≤ s.mSlen.toNat) (hb : s.mBase.toNat + pos + 2 ≤ s.ilen.toNat)
    (ent : Nat) :
    modbusCrc pos ent s = if s.modbusCheck pos = s.modbusField pos then .go (s.modbusFinished pos ent) else
      flagMismatch pos ent (s.modbusFinished pos ent) := by
  rw [modbusCrc, mtake_of_le h hb, memRead_of_le (b := .ibuf) (show s.mBase.toNat + pos ≤ s.ilen.toNat by omega)]
  show (if (s.modbusFinished pos ent).flag .crcBad = true then _ else _) = _
  simp only [flag_modbusFinished, reduceCtorEq, if_false, if_true, bne_iff_ne, ne_eq, ite_not]
  rfl

/-- A CRC field that is not there whole (R193, R200). -/
theorem modbusCrc_short {pos : Nat} (h : s.mSlen.toNat < pos + 2) (ent : Nat) :
    modbusCrc pos ent s = raise .truncatedInput pos ent s := mtake_of_gt h _ _ _

/-- The register table read in two parts (R199). -/
theorem responseTable_add (a b i : Nat) (s : State) :
    responseTable (a + b) i s = (responseTable a i s).andThen (responseTable b (i + a)) := by
  induction a generalizing i s with
  | zero => simp [responseTable]
  | succ a ih =>
    rw [show a + 1 + b = (a + b) + 1 by omega, responseTable, responseTable]
    rcases mtake_cases s (3 + 2 * i) 2 (2 + i) .truncatedInput (fun b' => responseTable (a + b) (i + 1) { s with
      mReg := Mem.write s.mReg i (ofBE16 b'), mNreg := BitVec.ofNat 8 (i + 1), mNent := BitVec.ofNat 8 (3 + i) })
      with ⟨h, hb, e⟩ | ⟨h, e⟩ | ⟨h, hb, e⟩
    · rw [e, mtake_of_le h hb, ih, show i + 1 + a = i + (a + 1) by omega]
    · rw [e, mtake_of_gt h]; rfl
    · rw [e, mtake, if_neg (Nat.not_lt.2 h), memRead_of_gt (b := .ibuf) hb]; rfl

/-- The state after `n` registers from number `i` on (R199). -/
def State.tableRead (s : State) (n i : Nat) : State :=
  { s with
    mReg := Mem.writeRange s.mReg i (tableOf n (Mem.readRange s.ibuf (s.mBase.toNat + (3 + 2 * i)) (2 * n)))
    mNreg := if n = 0 then s.mNreg else BitVec.ofNat 8 (i + n)
    mNent := if n = 0 then s.mNent else BitVec.ofNat 8 (2 + i + n) }

/-- `n` registers that are there whole (R199). -/
theorem responseTable_go {n i : Nat} (h : 3 + 2 * (i + n) ≤ s.mSlen.toNat)
    (hb : s.mBase.toNat + (3 + 2 * (i + n)) ≤ s.ilen.toNat) : responseTable n i s = .go (s.tableRead n i) := by
  induction n generalizing i s with
  | zero => rfl
  | succ n ih =>
    rw [responseTable, mtake_of_le (by omega) (by omega), ih (by simp; omega) (by simp; omega)]
    congr 1
    simp only [State.tableRead, Nat.add_one_ne_zero, if_false, tableOf, Mem.writeRange]
    have hd : (Mem.readRange s.ibuf (s.mBase.toNat + (3 + 2 * i)) (2 * (n + 1))).drop 2 =
        Mem.readRange s.ibuf (s.mBase.toNat + (3 + 2 * (i + 1))) (2 * n) := by
      rw [show 2 * (n + 1) = 2 + 2 * n by omega, Mem.readRange_add, List.drop_left' (by simp)]
      congr 1
    have ht : ofBE16 (Mem.readRange s.ibuf (s.mBase.toNat + (3 + 2 * i)) (2 * (n + 1))) =
        ofBE16 (Mem.readRange s.ibuf (s.mBase.toNat + (3 + 2 * i)) 2) := by
      rw [show 2 * (n + 1) = 2 + 2 * n by omega, Mem.readRange_add]
      rfl
    rw [hd, ht]
    congr 1
    · split
      · rename_i hn; subst hn; rfl
      · congr 1; omega
    · split
      · rename_i hn; subst hn; congr 1; omega
      · congr 1; omega

/-- A register that is not there whole (R199, R222). -/
theorem responseTable_short {n i : Nat} (h : s.mSlen.toNat < 3 + 2 * i + 2) :
    responseTable (n + 1) i s = raise .truncatedInput (3 + 2 * i) (2 + i) s := mtake_of_gt h _ _ _

/-- The function code at the start of the span. -/
def State.functionCodeField (s : State) : Half := ofBE16 (Mem.readRange s.ibuf s.mBase.toNat 2)

/-- The state after the function code of a response (R197). -/
def State.codeRead (s : State) (st : ModbusState) : State :=
  State.modbusAt { s with mFc := s.functionCodeField } 1 st

/-- The state after the length byte of a response (R198). -/
def State.lengthRead (s : State) (st : ModbusState) : State :=
  State.modbusAt { s with mLen := Mem.read s.ibuf (s.mBase.toNat + 2) } 2 st

/-- The read function code (R197). -/
theorem responseFunctionCode_read (h : 2 ≤ s.mSlen.toNat) (hb : s.mBase.toNat + 2 ≤ s.ilen.toNat)
    (hf : s.functionCodeField = fcRead) : responseFunctionCode s = responseLength (s.codeRead .expectLength) := by
  rw [responseFunctionCode, mtake_of_le (by omega) (by omega)]
  exact if_pos hf

/-- Any other function code (R197). -/
theorem responseFunctionCode_other (h : 2 ≤ s.mSlen.toNat) (hb : s.mBase.toNat + 2 ≤ s.ilen.toNat)
    (hf : s.functionCodeField ≠ fcRead) : responseFunctionCode s = modbusCrc 2 1 (s.codeRead .expectCrc) := by
  rw [responseFunctionCode, mtake_of_le (by omega) (by omega)]
  exact if_neg hf

theorem responseFunctionCode_short (h : s.mSlen.toNat < 2) : responseFunctionCode s = raise .truncatedInput 0 0 s :=
  mtake_of_gt h _ _ _

/-- The length byte of a read response that carries no table (R198). -/
theorem responseLength_empty (h : 3 ≤ s.mSlen.toNat) (hb : s.mBase.toNat + 3 ≤ s.ilen.toNat)
    (hl : Mem.read s.ibuf (s.mBase.toNat + 2) = 0) : responseLength s = modbusCrc 3 2 (s.lengthRead .expectCrc) := by
  rw [responseLength, mtake_of_le (by omega) (by omega)]
  exact if_neg (not_not.2 hl)

/-- The length byte of a read response that carries a table (R198). -/
theorem responseLength_table (h : 3 ≤ s.mSlen.toNat) (hb : s.mBase.toNat + 3 ≤ s.ilen.toNat)
    (hl : Mem.read s.ibuf (s.mBase.toNat + 2) ≠ 0) : responseLength s = responsePayload (s.lengthRead .expectPayload) := by
  rw [responseLength, mtake_of_le (by omega) (by omega)]
  exact if_pos hl

/-- No length byte (R198). -/
theorem responseLength_short (h : s.mSlen.toNat < 3) : responseLength s = raise .malformedSchema 2 1 s :=
  mtake_of_gt h _ _ _

/-- The state after the whole register table (R199). -/
def State.tableDone (s : State) : State :=
  { s.tableRead s.cfg.catalogRegs 0 with mState := ModbusState.expectCrc.code }

/-- A table that is there whole (R199). -/
theorem responsePayload_go (h : 3 + 2 * s.cfg.catalogRegs ≤ s.mSlen.toNat)
    (hb : s.mBase.toNat + (3 + 2 * s.cfg.catalogRegs) ≤ s.ilen.toNat) :
    responsePayload s = modbusCrc (3 + 2 * s.cfg.catalogRegs) (s.cfg.catalogRegs + 2) s.tableDone := by
  rw [responsePayload, responseTable_go (by omega) (by omega), andThen_go]
  rfl

/-- A table that ends after `n` registers, fewer than the catalog has (R199, R222, 60_exceptions.md R234). -/
theorem responsePayload_short {n : Nat} (hn : n < s.cfg.catalogRegs) (h : 3 + 2 * n ≤ s.mSlen.toNat)
    (hs : s.mSlen.toNat < 3 + 2 * n + 2) (hb : s.mBase.toNat + (3 + 2 * n) ≤ s.ilen.toNat) :
    responsePayload s = raise .truncatedInput (3 + 2 * n) (2 + n) (s.tableRead n 0) := by
  obtain ⟨m, hm⟩ : ∃ m, s.cfg.catalogRegs = n + (m + 1) := ⟨s.cfg.catalogRegs - n - 1, by omega⟩
  rw [responsePayload, hm, responseTable_add, responseTable_go (by omega) (by omega), andThen_go, Nat.zero_add,
    responseTable_short (show (s.tableRead n 0).mSlen.toNat < _ from hs)]
  rfl

/-- `MP.CMD` with a span (R193). -/
theorem execMpCmd_eq {src : Byte} (h : (src = 0 ∧ s.flag .eHaspl = true) ∨ src = 1) :
    exec (.mpCmd src) s = ((((requestFunctionCode (s.modbusOpened false src)).andThen requestStart).andThen
      requestCount).andThen (modbusCrc 6 3)).finish := by
  simp only [exec, execMpCmd, modbusStart_go h, andThen_go]

/-- `MP.RSP` with a span (R194). -/
theorem execMpRsp_eq {src : Byte} (h : (src = 0 ∧ s.flag .eHaspl = true) ∨ src = 1) :
    exec (.mpRsp src) s = (responseFunctionCode (s.modbusOpened true src)).finish := by
  simp only [exec, execMpRsp, modbusStart_go h, andThen_go]

/-! What these states hold. -/

@[simp] theorem modbusOpened_cfg (s : State) (isResponse : Bool) (src : Byte) :
    (s.modbusOpened isResponse src).cfg = s.cfg := rfl
@[simp] theorem modbusOpened_ilen (s : State) (isResponse : Bool) (src : Byte) :
    (s.modbusOpened isResponse src).ilen = s.ilen := rfl
@[simp] theorem modbusOpened_ibuf (s : State) (isResponse : Bool) (src : Byte) :
    (s.modbusOpened isResponse src).ibuf = s.ibuf := rfl
@[simp] theorem modbusOpened_crc (s : State) (isResponse : Bool) (src : Byte) :
    (s.modbusOpened isResponse src).crc = s.crc := rfl
@[simp] theorem modbusOpened_mState (s : State) (isResponse : Bool) (src : Byte) :
    (s.modbusOpened isResponse src).mState = 1 := rfl
@[simp] theorem modbusOpened_mFc (s : State) (isResponse : Bool) (src : Byte) :
    (s.modbusOpened isResponse src).mFc = 0 := rfl
@[simp] theorem modbusOpened_mLen (s : State) (isResponse : Bool) (src : Byte) :
    (s.modbusOpened isResponse src).mLen = 0 := rfl
@[simp] theorem modbusOpened_mStart (s : State) (isResponse : Bool) (src : Byte) :
    (s.modbusOpened isResponse src).mStart = 0 := rfl
@[simp] theorem modbusOpened_mCount (s : State) (isResponse : Bool) (src : Byte) :
    (s.modbusOpened isResponse src).mCount = 0 := rfl
@[simp] theorem modbusOpened_mCrc (s : State) (isResponse : Bool) (src : Byte) :
    (s.modbusOpened isResponse src).mCrc = 0 := rfl
@[simp] theorem modbusOpened_mNreg (s : State) (isResponse : Bool) (src : Byte) :
    (s.modbusOpened isResponse src).mNreg = 0 := rfl
@[simp] theorem modbusOpened_mToff (s : State) (isResponse : Bool) (src : Byte) :
    (s.modbusOpened isResponse src).mToff = 0 := rfl
@[simp] theorem modbusOpened_mTlen (s : State) (isResponse : Bool) (src : Byte) :
    (s.modbusOpened isResponse src).mTlen = 0 := rfl
@[simp] theorem modbusOpened_mNent (s : State) (isResponse : Bool) (src : Byte) :
    (s.modbusOpened isResponse src).mNent = 0 := rfl
@[simp] theorem modbusOpened_mBase (s : State) (isResponse : Bool) (src : Byte) :
    (s.modbusOpened isResponse src).mBase = s.spanBase src := rfl
@[simp] theorem modbusOpened_mSlen (s : State) (isResponse : Bool) (src : Byte) :
    (s.modbusOpened isResponse src).mSlen = s.spanLength src := rfl
@[simp] theorem modbusOpened_mReg (s : State) (isResponse : Bool) (src : Byte) :
    (s.modbusOpened isResponse src).mReg = [] := rfl
@[simp] theorem modbusFinished_cfg (s : State) (pos ent : Nat) : (s.modbusFinished pos ent).cfg = s.cfg := rfl
@[simp] theorem modbusFinished_ilen (s : State) (pos ent : Nat) : (s.modbusFinished pos ent).ilen = s.ilen := rfl
@[simp] theorem modbusFinished_ibuf (s : State) (pos ent : Nat) : (s.modbusFinished pos ent).ibuf = s.ibuf := rfl
@[simp] theorem modbusFinished_crc (s : State) (pos ent : Nat) :
    (s.modbusFinished pos ent).crc = s.modbusCheck pos := rfl
@[simp] theorem modbusFinished_mState (s : State) (pos ent : Nat) : (s.modbusFinished pos ent).mState = 7 := rfl
@[simp] theorem modbusFinished_mFc (s : State) (pos ent : Nat) : (s.modbusFinished pos ent).mFc = s.mFc := rfl
@[simp] theorem modbusFinished_mLen (s : State) (pos ent : Nat) : (s.modbusFinished pos ent).mLen = s.mLen := rfl
@[simp] theorem modbusFinished_mStart (s : State) (pos ent : Nat) :
    (s.modbusFinished pos ent).mStart = s.mStart := rfl
@[simp] theorem modbusFinished_mCount (s : State) (pos ent : Nat) :
    (s.modbusFinished pos ent).mCount = s.mCount := rfl
@[simp] theorem modbusFinished_mCrc (s : State) (pos ent : Nat) :
    (s.modbusFinished pos ent).mCrc = s.modbusField pos := rfl
@[simp] theorem modbusFinished_mNreg (s : State) (pos ent : Nat) : (s.modbusFinished pos ent).mNreg = s.mNreg := rfl
@[simp] theorem modbusFinished_mToff (s : State) (pos ent : Nat) :
    (s.modbusFinished pos ent).mToff = BitVec.ofNat 16 (pos + 2) := rfl
@[simp] theorem modbusFinished_mTlen (s : State) (pos ent : Nat) :
    (s.modbusFinished pos ent).mTlen = BitVec.ofNat 16 (s.mSlen.toNat - (pos + 2)) := rfl
@[simp] theorem modbusFinished_mNent (s : State) (pos ent : Nat) :
    (s.modbusFinished pos ent).mNent = BitVec.ofNat 8 (ent + 1) := rfl
@[simp] theorem modbusFinished_mBase (s : State) (pos ent : Nat) : (s.modbusFinished pos ent).mBase = s.mBase := rfl
@[simp] theorem modbusFinished_mSlen (s : State) (pos ent : Nat) : (s.modbusFinished pos ent).mSlen = s.mSlen := rfl
@[simp] theorem modbusFinished_mReg (s : State) (pos ent : Nat) : (s.modbusFinished pos ent).mReg = s.mReg := rfl

@[simp] theorem flag_modbusOpened (s : State) (isResponse : Bool) (src : Byte) (f : Flag) :
    (s.modbusOpened isResponse src).flag f =
      if f = .mRsp then isResponse else if f = .mValid ∨ f = .crcBad then false else s.flag f :=
  State.flag_openSpan s isResponse _ _ f

@[simp] theorem flag_tableRead (s : State) (n i : Nat) (f : Flag) : (s.tableRead n i).flag f = s.flag f := rfl

@[simp] theorem tableDone_mState (s : State) : s.tableDone.mState = 4 := rfl
@[simp] theorem tableDone_cfg (s : State) : s.tableDone.cfg = s.cfg := rfl
@[simp] theorem tableDone_ilen (s : State) : s.tableDone.ilen = s.ilen := rfl
@[simp] theorem tableDone_ibuf (s : State) : s.tableDone.ibuf = s.ibuf := rfl
@[simp] theorem tableDone_crc (s : State) : s.tableDone.crc = s.crc := rfl
@[simp] theorem tableDone_mFc (s : State) : s.tableDone.mFc = s.mFc := rfl
@[simp] theorem tableDone_mLen (s : State) : s.tableDone.mLen = s.mLen := rfl
@[simp] theorem tableDone_mStart (s : State) : s.tableDone.mStart = s.mStart := rfl
@[simp] theorem tableDone_mCount (s : State) : s.tableDone.mCount = s.mCount := rfl
@[simp] theorem tableDone_mCrc (s : State) : s.tableDone.mCrc = s.mCrc := rfl
@[simp] theorem tableDone_mToff (s : State) : s.tableDone.mToff = s.mToff := rfl
@[simp] theorem tableDone_mTlen (s : State) : s.tableDone.mTlen = s.mTlen := rfl
@[simp] theorem tableDone_mBase (s : State) : s.tableDone.mBase = s.mBase := rfl
@[simp] theorem tableDone_mSlen (s : State) : s.tableDone.mSlen = s.mSlen := rfl
@[simp] theorem flag_tableDone (s : State) (f : Flag) : s.tableDone.flag f = s.flag f := rfl
@[simp] theorem status_tableDone (s : State) : s.tableDone.status = s.status := rfl

/-- What a parse clears and sets of `STATUS` before it reads anything (R191). -/
theorem status_modbusOpened (s : State) (isResponse : Bool) (src : Byte) :
    (s.modbusOpened isResponse src).status = (s.status &&& 0x67) ||| (if isResponse then 0x80 else 0x00) := by
  refine State.status_ext (s := s.modbusOpened isResponse src)
    (t := { s with status := (s.status &&& 0x67) ||| (if isResponse then 0x80 else 0x00) }) fun f => ?_
  rw [flag_modbusOpened]
  cases f <;> cases isResponse <;> simp [State.flag, Flag.bit]

/-- What the end of a parse sets of `STATUS` (R193, R200, R201). -/
theorem status_modbusFinished (s : State) (pos ent : Nat) :
    (s.modbusFinished pos ent).status =
      if s.modbusCheck pos = s.modbusField pos then (s.status &&& 0xEF) ||| 0x08 else s.status ||| 0x18 := by
  refine State.status_ext (s := s.modbusFinished pos ent) (t := { s with
    status := if s.modbusCheck pos = s.modbusField pos then (s.status &&& 0xEF) ||| 0x08 else s.status ||| 0x18 })
    fun f => ?_
  rw [flag_modbusFinished]
  by_cases h : s.modbusCheck pos = s.modbusField pos <;> cases f <;> simp [h, State.flag, Flag.bit]

@[simp] theorem codeRead_cfg (s : State) (st : ModbusState) : (s.codeRead st).cfg = s.cfg := rfl
@[simp] theorem codeRead_ilen (s : State) (st : ModbusState) : (s.codeRead st).ilen = s.ilen := rfl
@[simp] theorem codeRead_ibuf (s : State) (st : ModbusState) : (s.codeRead st).ibuf = s.ibuf := rfl
@[simp] theorem codeRead_crc (s : State) (st : ModbusState) : (s.codeRead st).crc = s.crc := rfl
@[simp] theorem codeRead_mState (s : State) (st : ModbusState) : (s.codeRead st).mState = st.code := rfl
@[simp] theorem codeRead_mFc (s : State) (st : ModbusState) : (s.codeRead st).mFc = s.functionCodeField := rfl
@[simp] theorem codeRead_mLen (s : State) (st : ModbusState) : (s.codeRead st).mLen = s.mLen := rfl
@[simp] theorem codeRead_mStart (s : State) (st : ModbusState) : (s.codeRead st).mStart = s.mStart := rfl
@[simp] theorem codeRead_mCount (s : State) (st : ModbusState) : (s.codeRead st).mCount = s.mCount := rfl
@[simp] theorem codeRead_mCrc (s : State) (st : ModbusState) : (s.codeRead st).mCrc = s.mCrc := rfl
@[simp] theorem codeRead_mNreg (s : State) (st : ModbusState) : (s.codeRead st).mNreg = s.mNreg := rfl
@[simp] theorem codeRead_mToff (s : State) (st : ModbusState) : (s.codeRead st).mToff = s.mToff := rfl
@[simp] theorem codeRead_mTlen (s : State) (st : ModbusState) : (s.codeRead st).mTlen = s.mTlen := rfl
@[simp] theorem codeRead_mNent (s : State) (st : ModbusState) : (s.codeRead st).mNent = 1 := rfl
@[simp] theorem codeRead_mBase (s : State) (st : ModbusState) : (s.codeRead st).mBase = s.mBase := rfl
@[simp] theorem codeRead_mSlen (s : State) (st : ModbusState) : (s.codeRead st).mSlen = s.mSlen := rfl
@[simp] theorem codeRead_mReg (s : State) (st : ModbusState) : (s.codeRead st).mReg = s.mReg := rfl
@[simp] theorem flag_codeRead (s : State) (st : ModbusState) (f : Flag) : (s.codeRead st).flag f = s.flag f := rfl
@[simp] theorem status_codeRead (s : State) (st : ModbusState) : (s.codeRead st).status = s.status := rfl
@[simp] theorem lengthRead_cfg (s : State) (st : ModbusState) : (s.lengthRead st).cfg = s.cfg := rfl
@[simp] theorem lengthRead_ilen (s : State) (st : ModbusState) : (s.lengthRead st).ilen = s.ilen := rfl
@[simp] theorem lengthRead_ibuf (s : State) (st : ModbusState) : (s.lengthRead st).ibuf = s.ibuf := rfl
@[simp] theorem lengthRead_crc (s : State) (st : ModbusState) : (s.lengthRead st).crc = s.crc := rfl
@[simp] theorem lengthRead_mState (s : State) (st : ModbusState) : (s.lengthRead st).mState = st.code := rfl
@[simp] theorem lengthRead_mFc (s : State) (st : ModbusState) : (s.lengthRead st).mFc = s.mFc := rfl
@[simp] theorem lengthRead_mLen (s : State) (st : ModbusState) :
    (s.lengthRead st).mLen = Mem.read s.ibuf (s.mBase.toNat + 2) := rfl
@[simp] theorem lengthRead_mStart (s : State) (st : ModbusState) : (s.lengthRead st).mStart = s.mStart := rfl
@[simp] theorem lengthRead_mCount (s : State) (st : ModbusState) : (s.lengthRead st).mCount = s.mCount := rfl
@[simp] theorem lengthRead_mCrc (s : State) (st : ModbusState) : (s.lengthRead st).mCrc = s.mCrc := rfl
@[simp] theorem lengthRead_mNreg (s : State) (st : ModbusState) : (s.lengthRead st).mNreg = s.mNreg := rfl
@[simp] theorem lengthRead_mToff (s : State) (st : ModbusState) : (s.lengthRead st).mToff = s.mToff := rfl
@[simp] theorem lengthRead_mTlen (s : State) (st : ModbusState) : (s.lengthRead st).mTlen = s.mTlen := rfl
@[simp] theorem lengthRead_mNent (s : State) (st : ModbusState) : (s.lengthRead st).mNent = 2 := rfl
@[simp] theorem lengthRead_mBase (s : State) (st : ModbusState) : (s.lengthRead st).mBase = s.mBase := rfl
@[simp] theorem lengthRead_mSlen (s : State) (st : ModbusState) : (s.lengthRead st).mSlen = s.mSlen := rfl
@[simp] theorem lengthRead_mReg (s : State) (st : ModbusState) : (s.lengthRead st).mReg = s.mReg := rfl
@[simp] theorem flag_lengthRead (s : State) (st : ModbusState) (f : Flag) : (s.lengthRead st).flag f = s.flag f := rfl
@[simp] theorem status_lengthRead (s : State) (st : ModbusState) : (s.lengthRead st).status = s.status := rfl
@[simp] theorem tableRead_cfg (s : State) (n i : Nat) : (s.tableRead n i).cfg = s.cfg := rfl
@[simp] theorem tableRead_ilen (s : State) (n i : Nat) : (s.tableRead n i).ilen = s.ilen := rfl
@[simp] theorem tableRead_ibuf (s : State) (n i : Nat) : (s.tableRead n i).ibuf = s.ibuf := rfl
@[simp] theorem tableRead_crc (s : State) (n i : Nat) : (s.tableRead n i).crc = s.crc := rfl
@[simp] theorem tableRead_mState (s : State) (n i : Nat) : (s.tableRead n i).mState = s.mState := rfl
@[simp] theorem tableRead_mFc (s : State) (n i : Nat) : (s.tableRead n i).mFc = s.mFc := rfl
@[simp] theorem tableRead_mLen (s : State) (n i : Nat) : (s.tableRead n i).mLen = s.mLen := rfl
@[simp] theorem tableRead_mStart (s : State) (n i : Nat) : (s.tableRead n i).mStart = s.mStart := rfl
@[simp] theorem tableRead_mCount (s : State) (n i : Nat) : (s.tableRead n i).mCount = s.mCount := rfl
@[simp] theorem tableRead_mCrc (s : State) (n i : Nat) : (s.tableRead n i).mCrc = s.mCrc := rfl
@[simp] theorem tableRead_mToff (s : State) (n i : Nat) : (s.tableRead n i).mToff = s.mToff := rfl
@[simp] theorem tableRead_mTlen (s : State) (n i : Nat) : (s.tableRead n i).mTlen = s.mTlen := rfl
@[simp] theorem tableRead_mBase (s : State) (n i : Nat) : (s.tableRead n i).mBase = s.mBase := rfl
@[simp] theorem tableRead_mSlen (s : State) (n i : Nat) : (s.tableRead n i).mSlen = s.mSlen := rfl
@[simp] theorem status_tableRead (s : State) (n i : Nat) : (s.tableRead n i).status = s.status := rfl

end Sys2Proof.Machine
end

