-- ==== Sys2Proof/Laws/PerInstr.lean ====
section
/-! SUPPORT. The family `EncodedLength`: how many bytes the encoding of each instruction has. -/

namespace Sys2Proof.Laws.EncodedLength

open Sys2Proof Sys2Proof.Machine

/-- The length of a message of each wire row (30_encoding.md R97, R98, R99). -/
def messageLength : Instr → Nat
  | .wireEnvelopeFrame _ _ _ _ _ payload _ _ => 28 + payload.length
  | .wireModbusRequest .. => 8
  | .wireModbusResponseAck .. => 4
  | .wireModbusResponseEmptyRead .. => 5
  | .wireModbusResponseRead _ table _ => 5 + 2 * table.length
  | _ => 0

/-- The encoding of a well-formed command is as long as R96 says a command with its first bytes must be, and a message
is as long as its wire format says. -/
def Statement (i : Instr) : Prop :=
  i.wellFormed = true → (encode i).length = if isWireRow i then messageLength i else neededLength (encode i)

theorem nop : Statement .nop := fun _ => rfl

theorem reset : Statement .reset := fun _ => rfl

theorem clrerr : Statement .clrerr := fun _ => rfl

theorem rd (a : Byte) : Statement (.rd a) := fun _ => rfl

theorem wr (r : Byte) (v : Word) : Statement (.wr r v) := fun _ => rfl

theorem ibClr : Statement .ibClr := fun _ => rfl

theorem ibLoad (data : List Byte) : Statement (.ibLoad data) := by
  intro h
  have hl : data.length ≤ 255 := by simpa [Instr.wellFormed] using h
  show data.length + 1 + 1 = 2 + (BitVec.ofNat 8 data.length).toNat
  rw [BitVec.toNat_ofNat, Nat.mod_eq_of_lt (by omega)]
  omega

theorem rdi (a : Half) : Statement (.rdi a) := fun _ => rfl

theorem rdo (a : Half) : Statement (.rdo a) := fun _ => rfl

theorem rdp (a : Byte) : Statement (.rdp a) := fun _ => rfl

theorem rdd (a : Byte) : Statement (.rdd a) := fun _ => rfl

theorem crcInit : Statement .crcInit := fun _ => rfl

theorem crcUpd (a : Byte) : Statement (.crcUpd a) := fun _ => rfl

theorem crcBuf (a b : Half) : Statement (.crcBuf a b) := fun _ => rfl

theorem sumInit : Statement .sumInit := fun _ => rfl

theorem sumUpd (a : Byte) : Statement (.sumUpd a) := fun _ => rfl

theorem sumBuf (a b : Half) : Statement (.sumBuf a b) := fun _ => rfl

theorem epRun : Statement .epRun := fun _ => rfl

theorem envBuild (a : Word) : Statement (.envBuild a) := fun _ => rfl

theorem mbReq (a b c : Half) : Statement (.mbReq a b c) := fun _ => rfl

theorem mpCmd (a : Byte) : Statement (.mpCmd a) := fun _ => rfl

theorem mpRsp (a : Byte) : Statement (.mpRsp a) := fun _ => rfl

theorem fxU16 (a : Byte) : Statement (.fxU16 a) := fun _ => rfl

theorem fxS16 (a : Byte) : Statement (.fxS16 a) := fun _ => rfl

theorem fxD32 (a : Byte) : Statement (.fxD32 a) := fun _ => rfl

theorem wireEnvelopeFrame (length control counter : Half) (serial : Word) (data payload : List Byte) (checksum fin : Byte) :
    Statement (.wireEnvelopeFrame length control counter serial data payload checksum fin) := by
  intro h
  have hd : data.length = 15 := by simpa [Instr.wellFormed] using h
  simp [encode, isWireRow, messageLength, hd]
  omega

theorem wireModbusRequest (functionCode startRegister count crc : Half) :
    Statement (.wireModbusRequest functionCode startRegister count crc) := fun _ => rfl

theorem wireModbusResponseAck (functionCode crc : Half) :
    Statement (.wireModbusResponseAck functionCode crc) := fun _ => rfl

theorem wireModbusResponseEmptyRead (crc : Half) : Statement (.wireModbusResponseEmptyRead crc) := fun _ => rfl

theorem wireModbusResponseRead (length : Byte) (table : List Half) (crc : Half) :
    Statement (.wireModbusResponseRead length table crc) := by
  intro _
  simp [encode, isWireRow, messageLength]
  omega

end Sys2Proof.Laws.EncodedLength
end

