-- ==== Sys2Proof/Laws/Wire.lean ====
section
/-! SUPPORT. Loading a message into the input buffer (30_encoding.md R102) and what the FCB does with one host input
(42_system_and_buffers.md R161), said once. -/

namespace Sys2Proof.Machine

/-- The chunks of a byte string are that string, in order (R102). -/
theorem chunks_flatten (fuel : Nat) (bytes : List Byte) (h : bytes.length ≤ fuel) :
    (chunks fuel bytes).flatten = bytes := by
  induction fuel generalizing bytes with
  | zero => simp_all [chunks]
  | succ fuel ih =>
    cases bytes with
    | nil => rfl
    | cons b rest =>
      rw [chunks, List.flatten_cons, ih _ (by simp [chunkSize] at h ⊢; omega), List.take_append_drop]

/-- Every chunk is one that `IB.LOAD` carries (R91, R102). -/
theorem chunks_bounds (fuel : Nat) (bytes : List Byte) : ∀ p ∈ chunks fuel bytes, p ≠ [] ∧ p.length ≤ chunkSize := by
  induction fuel generalizing bytes with
  | zero => intro p hp; cases bytes <;> simp [chunks] at hp
  | succ fuel ih =>
    cases bytes with
    | nil => intro p hp; simp [chunks] at hp
    | cons b rest =>
      intro p hp
      rcases List.mem_cons.1 hp with rfl | hp
      · exact ⟨by simp [chunkSize], List.length_take_le _ _⟩
      · exact ih _ p hp

/-- `IB.LOAD` of data that fits (R156). -/
theorem execIbLoad_fits {s : State} {data : List Byte} (h : s.ilen.toNat + data.length ≤ s.cfg.ibufMax) :
    execIbLoad data s = .next (State.withOutcome (State.staleSpans { s with
      ibuf := Mem.writeRange s.ibuf s.ilen.toNat data
      ilen := BitVec.ofNat 16 (s.ilen.toNat + data.length) }) .ok) :=
  if_neg (Nat.not_lt.2 h)

/-- The input buffer after `bytes` is appended to it (R156). -/
def State.appended (s : State) (bytes : List Byte) : State :=
  { s with
    ibuf := Mem.writeRange s.ibuf s.ilen.toNat bytes
    ilen := BitVec.ofNat 16 (s.ilen.toNat + bytes.length)
    status := s.status &&& 0xF4
    outcome := some .ok }

theorem execIbLoad_appended {s : State} {data : List Byte} (h : s.ilen.toNat + data.length ≤ s.cfg.ibufMax) :
    execIbLoad data s = .next (s.appended data) := by
  rw [execIbLoad_fits h]
  refine congrArg Host.Outcome.next (State.ext ?_ ?_ ?_ ?_ ?_ ?_ ?_ ?_ ?_ ?_ ?_ ?_ ?_ ?_ ?_ ?_ ?_ ?_ ?_ ?_ ?_ ?_ ?_ ?_
    ?_ ?_ ?_ ?_ ?_ ?_ ?_ ?_ ?_ ?_ ?_ ?_ ?_ ?_ ?_ ?_ ?_ ?_ ?_ ?_)
  case _ => rfl
  case _ => exact State.status_staleSpans _
  all_goals rfl

theorem appended_appended (s : State) (a b : List Byte) (h : s.ilen.toNat + a.length < 65536) :
    (s.appended a).appended b = s.appended (a ++ b) := by
  have hi : (s.appended a).ilen.toNat = s.ilen.toNat + a.length := by
    show (BitVec.ofNat 16 _).toNat = _
    rw [BitVec.toNat_ofNat, Nat.mod_eq_of_lt (by omega)]
  have hs : (s.status &&& 0xF4) &&& 0xF4 = s.status &&& (0xF4 : Byte) := by rw [BitVec.and_assoc]; rfl
  rw [State.appended, hi]
  simp only [State.appended, hs, Mem.writeRange_append, List.length_append, Nat.add_assoc]

/-- The chunks appended one after the other (R102). -/
theorem foldl_execIbLoad {s : State} (pieces : List (List Byte)) (hm : s.cfg.ibufMax ≤ 65535) (done : List Byte)
    (h : s.ilen.toNat + (done ++ pieces.flatten).length ≤ s.cfg.ibufMax) :
    pieces.foldl (fun o c => afterNext o (execIbLoad c)) (.next (s.appended done)) =
      .next (s.appended (done ++ pieces.flatten)) := by
  induction pieces generalizing done with
  | nil => simp
  | cons p pieces ih =>
    simp only [List.flatten_cons, List.length_append] at h
    have hi : (s.appended done).ilen.toNat = s.ilen.toNat + done.length := by
      show (BitVec.ofNat 16 _).toNat = _
      rw [BitVec.toNat_ofNat, Nat.mod_eq_of_lt (by omega)]
    rw [List.foldl_cons, afterNext_next, execIbLoad_appended (by
      rw [hi]
      show s.ilen.toNat + done.length + p.length ≤ s.cfg.ibufMax
      omega),
      appended_appended s done p (by omega), ih (done ++ p) (by simp only [List.length_append]; omega),
      List.flatten_cons, List.append_assoc]

/-- The state after `IB.SET` of a string that fits (R102). -/
def State.inputSet (s : State) (bytes : List Byte) : State := State.appended { s with ilen := 0 } bytes

/-- `IB.SET` of a string that fits leaves exactly that string in the input buffer (R102, R155, R156). -/
theorem setInput_fits {s : State} {bytes : List Byte} (hm : s.cfg.ibufMax ≤ 65535) (h : bytes.length ≤ s.cfg.ibufMax) :
    setInput bytes s = .next (s.inputSet bytes) := by
  have h0 : execIbClr s = .next (State.appended { s with ilen := 0 } []) := by
    refine congrArg Host.Outcome.next (State.ext ?_ ?_ ?_ ?_ ?_ ?_ ?_ ?_ ?_ ?_ ?_ ?_ ?_ ?_ ?_ ?_ ?_ ?_ ?_ ?_ ?_ ?_ ?_
      ?_ ?_ ?_ ?_ ?_ ?_ ?_ ?_ ?_ ?_ ?_ ?_ ?_ ?_ ?_ ?_ ?_ ?_ ?_ ?_ ?_)
    case _ => rfl
    case _ => exact State.status_staleSpans _
    all_goals rfl
  have hf := chunks_flatten bytes.length bytes (Nat.le_refl _)
  have hl : (0 : Half).toNat + ([] ++ (chunks bytes.length bytes).flatten).length ≤ s.cfg.ibufMax := by
    simpa [hf] using h
  rw [setInput, h0]
  refine (foldl_execIbLoad (s := { s with ilen := 0 }) _ hm [] hl).trans ?_
  rw [List.nil_append, hf]
  rfl

theorem inputSet_holdsInput {s : State} {bytes : List Byte} (hw : Mem.wf s.ibuf = true) (h : bytes.length ≤ 65535) :
    (s.inputSet bytes).holdsInput bytes := by
  refine ⟨?_, Mem.readRange_writeRange _ hw 0 bytes⟩
  show (BitVec.ofNat 16 ((0 : Half).toNat + bytes.length)).toNat = _
  rw [BitVec.toNat_ofNat, Nat.mod_eq_of_lt (by simp; omega)]
  simp

/-- A message is a sequence of commands (R102, R263). -/
theorem setInput_eq_runSeq (bytes : List Byte) (s : State) (last : Instr) :
    afterNext (setInput bytes s) (exec last) =
      runSeq (.ibClr :: (chunks bytes.length bytes).map .ibLoad ++ [last]) s := by
  have key : ∀ (pieces : List (List Byte)) (t : State),
      afterNext (pieces.foldl (fun o c => afterNext o (execIbLoad c)) (.next t)) (exec last) =
        runSeq (pieces.map .ibLoad ++ [last]) t := by
    intro pieces
    induction pieces with
    | nil =>
      intro t
      show exec last t = afterNext (exec last t) .next
      cases exec last t <;> rfl
    | cons p pieces ih =>
      intro t
      rw [List.foldl_cons, afterNext_next]
      have : ∃ u, execIbLoad p t = .next u := by
        rw [execIbLoad]
        split
        · exact ⟨_, rfl⟩
        · exact ⟨_, rfl⟩
      obtain ⟨u, hu⟩ := this
      rw [hu, ih u]
      show _ = afterNext (execIbLoad p t) _
      rw [hu]
      rfl
  exact key _ _

/-- A queued input that decodes is executed (R161). -/
theorem step_decoded {s : State} {input : HostInput} {queue : List HostInput} {i : Instr} (hp : s.pending = input :: queue)
    (hd : decodeInput input = .ok i) : step s = exec i (s.withPending queue) := by
  rw [step, serveNext, hp]
  simp only [serve, hd]

/-- A queued input that does not decode (R94, R161). -/
theorem step_other {s : State} {input : HostInput} {queue : List HostInput} {why : DecodeError}
    (hp : s.pending = input :: queue) (hd : decodeInput input = .error why) :
    step s = serveOther input (s.withPending queue) := by
  rw [step, serveNext, hp]
  simp only [serve, hd]

/-- Nothing queued: the FCB waits. -/
theorem step_idle {s : State} (hp : s.pending = []) : step s = .next s := by
  rw [step, serveNext, hp]

end Sys2Proof.Machine
end

