-- ==== Sys2Proof/Tests/Slice0.lean ====
section
/-! SUPPORT. The model's own tests: the smoke test of WellFormed, every constructor's decoding from a word written out
by 30_encoding.md R91 to R93 and R97 to R99, one-step tests whose expected values are the vectors of
95_test_vectors.md (their ids in the comments), and a witness for every statement with hypotheses. -/

namespace Sys2Proof.Tests

open Sys2Proof Sys2Proof.Machine

set_option Elab.async false

/-! ## Helpers -/

/-- Reset, with this string in the input buffer. -/
def holding (bytes : List Byte) : State :=
  { State.reset with ibuf := Mem.writeRange [] 0 bytes, ilen := BitVec.ofNat 16 bytes.length }

/-- The same with another number of catalog registers. -/
def holdingWith (catalogRegs : Nat) (bytes : List Byte) : State :=
  { holding bytes with cfg := { Config.recommended with catalogRegs := catalogRegs } }

/-- The next state; reset, which has no outcome, where there is none. -/
def after : Host.Outcome State Fault Refusal → State
  | .next s => s
  | _ => State.reset

/-- There is a next state. -/
def goes : Host.Outcome State Fault Refusal → Bool
  | .next _ => true
  | _ => false

theorem next_of_goes {o : Host.Outcome State Fault Refusal} (h : goes o = true) : o = .next (after o) := by
  cases o <;> first | rfl | cases h

/-- The frame of DEYE's worked example (section 1 of the vectors). -/
def frame : List Byte :=
  [0xA5, 0x17, 0x00, 0x10, 0x45, 0x00, 0x00, 0x11, 0xFA, 0xC1, 0xEC, 0x02, 0, 0, 0, 0, 0, 0, 0, 0, 0, 0, 0, 0, 0, 0,
    0x01, 0x03, 0x00, 0x3C, 0x00, 0x01, 0x44, 0x06, 0xB1, 0x15]

/-- The request in it. -/
def request : List Byte := [0x01, 0x03, 0x00, 0x3C, 0x00, 0x01, 0x44, 0x06]

/-- The bytes of `OBUF` or `PBUF` from 0 on. -/
def bytesOf (m : Mem 8) (n : Nat) : List Byte := Mem.readRange m 0 n

/-! ## WellFormed refuses an ill-formed term of each check -/

theorem smoke_sourceOk : Instr.wellFormed (.mpCmd 2) = false ∧ Instr.wellFormed (.mpRsp 255) = false := by decide
theorem smoke_loadOk : Instr.wellFormed (.ibLoad (List.replicate 256 0)) = false ∧
    Instr.wellFormed (.ibLoad (List.replicate 255 0)) = true := by decide +kernel
theorem smoke_frameDataOk : Instr.wellFormed (.wireEnvelopeFrame 0 0 0 0 (List.replicate 14 0) [] 0 0) = false := by decide
theorem smoke_ackCodeOk : Instr.wellFormed (.wireModbusResponseAck 0x0103 0) = false := by decide
theorem smoke_readLengthOk : Instr.wellFormed (.wireModbusResponseRead 0 [0] 0) = false := by decide
theorem smoke_tableOk : Instr.wellFormed (.wireModbusResponseRead 2 [] 0) = false ∧
    Instr.wellFormed (.wireModbusResponseRead 2 (List.replicate 128 0) 0) = false := by decide +kernel

/-! ## Every constructor decodes from its word -/

theorem decode_system : decode [0x00] = .ok .nop ∧ decode [0x01] = .ok .reset ∧ decode [0x02] = .ok .clrerr ∧
    decode [0x03, 0x14] = .ok (.rd 0x14) ∧
    decode [0x04, 0x06, 0x12, 0x34, 0x56, 0x78] = .ok (.wr 0x06 0x12345678) := by decide +kernel
theorem decode_buffers : decode [0x08] = .ok .ibClr ∧ decode [0x09, 0x02, 0x01, 0x03] = .ok (.ibLoad [0x01, 0x03]) ∧
    decode [0x0A, 0x01, 0x02] = .ok (.rdi 0x0102) ∧ decode [0x0B, 0x00, 0x23] = .ok (.rdo 0x0023) ∧
    decode [0x0C, 0x07] = .ok (.rdp 7) ∧ decode [0x0D, 0x0E] = .ok (.rdd 14) := by decide +kernel
theorem decode_checks : decode [0x10] = .ok .crcInit ∧ decode [0x11, 0x01] = .ok (.crcUpd 0x01) ∧
    decode [0x12, 0x00, 0x06, 0x00, 0x02] = .ok (.crcBuf 6 2) ∧ decode [0x18] = .ok .sumInit ∧
    decode [0x19, 0xFF] = .ok (.sumUpd 0xFF) ∧ decode [0x1A, 0x00, 0x01, 0x00, 0x21] = .ok (.sumBuf 1 33) := by
  decide +kernel
theorem decode_envelope : decode [0x20] = .ok .epRun ∧
    decode [0x21, 0xEC, 0xC1, 0xFA, 0x11] = .ok (.envBuild 0xECC1FA11) := by decide +kernel
theorem decode_modbus : decode [0x30, 0x01, 0x03, 0x00, 0x3C, 0x00, 0x01] = .ok (.mbReq 0x0103 0x003C 0x0001) ∧
    decode [0x31, 0x00] = .ok (.mpCmd 0) ∧ decode [0x32, 0x01] = .ok (.mpRsp 1) ∧
    decode [0x38, 0x01] = .ok (.fxU16 1) ∧ decode [0x39, 0x02] = .ok (.fxS16 2) ∧
    decode [0x3A, 0x03] = .ok (.fxD32 3) := by decide +kernel
theorem decode_wireFrame : decodeMessage .frame frame = .ok (.wireEnvelopeFrame 0x0017 0x1045 0x0000 0xECC1FA11
    [2, 0, 0, 0, 0, 0, 0, 0, 0, 0, 0, 0, 0, 0, 0] request 0xB1 0x15) := by decide +kernel
theorem decode_wireModbus :
    decodeMessage .request request = .ok (.wireModbusRequest 0x0103 0x003C 0x0001 0x0644) ∧
    decodeMessage .response [0x01, 0x10, 0x01, 0xEC] = .ok (.wireModbusResponseAck 0x0110 0xEC01) ∧
    decodeMessage .response [0x01, 0x03, 0x00, 0x20, 0xF0] = .ok (.wireModbusResponseEmptyRead 0xF020) ∧
    decodeMessage .response [0x01, 0x03, 0x04, 0x00, 0xEB, 0xFF, 0x38, 0xCA, 0x25] =
      .ok (.wireModbusResponseRead 0x04 [0x00EB, 0xFF38] 0x25CA) := by decide +kernel
-- V-D1 to V-D13.
theorem decode_illegal : decode [] = .error .emptyCommand ∧ decode [0x05] = .error (.reservedOpcode 0x05) ∧
    decode [0x00, 0x00] = .error (.wrongLength 0x00) ∧ decode [0x03] = .error (.wrongLength 0x03) ∧
    decode [0x12, 0, 0, 0] = .error (.wrongLength 0x12) ∧ decode [0x09] = .error (.wrongLength 0x09) ∧
    decode [0x09, 0x03, 0xA5, 0x17] = .error (.wrongLength 0x09) ∧ decode [0x31, 0x02] = .error (.badSource 0x31) ∧
    decode [0x32, 0xFF] = .error (.badSource 0x32) := by decide +kernel
-- The opcode table's words: the first byte of a command is the least significant one.
theorem table_words : decodeTableWord 8 0x00 = some .nop ∧ decodeTableWord 16 0x0703 = some (.rd 0x07) ∧
    decodeTableWord 8 0x09 = some (.ibLoad []) ∧ decodeTableWord 16 0x0231 = none ∧
    decodeTableWord 8 0xA5 = some (.wireEnvelopeFrame 0 0 0 0 (List.replicate 15 0) [] 0 0) := by decide +kernel
theorem table_word_runs : (after (step (State.reset.withFetchWord 16 0x0703))).rdata = 0x1045 := by decide +kernel

/-! ## One step of each instruction -/

-- V-X27.
theorem test_nop : after (exec .nop { State.reset with err := 1 }) = { State.reset with err := 1, outcome := some .ok } := by decide +kernel

-- V-X31.
theorem test_reset : after (exec .reset { State.reset with cnt := 0x1234, ctrl := 0xABCD, err := 1, rdata := 3 }) =
    { State.reset with outcome := some .ok } := by decide +kernel

-- V-X29.
theorem test_clrerr : after (exec .clrerr { State.reset with err := 1, errPos := 2, errEnt := 3, rdata := 1 }) =
    { State.reset with rdata := 1, outcome := some .ok } := by decide +kernel

-- V-X2.
theorem test_rd : (after (exec (.rd 0x07) State.reset)).rdata = 0x00001045 := by decide +kernel

-- V-X4.
theorem test_rd_unimplemented : after (exec (.rd 0x0C) { State.reset with rdata := 0xFFFF }) = { State.reset with
    rdata := 0xFFFF, err := 6, errEnt := 3, outcome := some (.error .illegalCommand) } := by decide +kernel

-- V-X6.
theorem test_wr : after (exec (.wr 0x06 0x1234) State.reset) = { State.reset with cnt := 0x1234, outcome := some .ok } := by decide +kernel

-- V-X9.
theorem test_wr_outOfRange : after (exec (.wr 0x07 0xFFFFFFFF) State.reset) = { State.reset with
    err := 2, errEnt := 7, outcome := some (.error .outOfRange) } := by decide +kernel

-- V-X25, R155.
theorem test_ibClr : (after (exec (.ibClr) { holding [1, 3] with status := 0xFF })).ilen = 0 ∧
    (after (exec (.ibClr) { holding [1, 3] with status := 0xFF })).status = 0xF4 := by decide +kernel

-- V-X20, R156.
theorem test_ibLoad : (after (exec (.ibLoad [0xAA]) (holding [1, 3]))).ilen = 3 ∧
    bytesOf (after (exec (.ibLoad [0xAA]) (holding [1, 3]))).ibuf 3 = [1, 3, 0xAA] := by decide +kernel

-- V-X34.
theorem test_ibLoad_full : let full := { holding frame with cfg := { Config.recommended with ibufMax := 36 }, status := 0x0B }
    after (exec (.ibLoad [0]) full) = { full with err := 2, errPos := 36, outcome := some (.error .outOfRange) } := by decide +kernel

-- V-X23.
theorem test_rdi : (after (exec (.rdi 1) (holding [1, 3]))).rdata = 0x00000003 := by decide +kernel

-- V-X24.
theorem test_rdi_past : (after (exec (.rdi 2) (holding [1, 3]))).errPos = 2 ∧ (after (exec (.rdi 2) (holding [1, 3]))).err = 1 := by decide +kernel

-- V-B1.
theorem test_rdo : (after (exec (.rdo 34) { State.reset with obuf := Mem.writeRange [] 0 frame, olen := 36, status := 0x60 })).rdata = 0xB1 := by decide +kernel

-- V-X15.
theorem test_rdo_empty : (after (exec (.rdo 0) State.reset)).outcome = some (.error .truncatedInput) := by decide +kernel

-- V-M1.
theorem test_rdp : (after (exec (.rdp 6) { State.reset with pbuf := Mem.writeRange [] 0 request, status := 0x20 })).rdata = 0x44 := by decide +kernel

-- V-X14.
theorem test_rdp_unbuilt : (after (exec (.rdp 0) State.reset)).outcome = some (.error .truncatedInput) := by decide +kernel

-- V-E14.
theorem test_rdd : (after (exec (.rdd 14) { State.reset with eData := [(14, 0x1E)] })).rdata = 0x1E := by decide +kernel

-- V-X19.
theorem test_rdd_past : (after (exec (.rdd 15) State.reset)).errEnt = 13 ∧ (after (exec (.rdd 15) State.reset)).err = 6 := by decide +kernel

-- V-CC9.
theorem test_crcInit : (after (exec (.crcInit) { State.reset with crc := 0x0644 })).crc = 0xFFFF := by decide +kernel

-- V-CC10, V-CC11.
theorem test_crcUpd : (after (exec (.crcUpd 0x01) State.reset)).crc = 0x807E ∧ (after (exec (.crcUpd 0x03) { State.reset with crc := 0x807E })).crc = 0x2140 := by decide +kernel

-- V-CC1, V-CC8.
theorem test_crcBuf : (after (exec (.crcBuf 0 6) (holding request))).crc = 0x0644 ∧ (after (exec (.crcBuf 6 2) (holding request))).crc = 0xB2B2 := by decide +kernel

-- V-CC7.
theorem test_crcBuf_past : (after (exec (.crcBuf 0xFFFF 0xFFFF) (holding request))).errPos = 65535 := by decide +kernel

-- V-SC7.
theorem test_sumInit : (after (exec (.sumInit) { State.reset with sum := 0xB1 })).sum = 0x00 := by decide +kernel

-- V-SC9, V-SC10.
theorem test_sumUpd : (after (exec (.sumUpd 0x01) { State.reset with sum := 0xFF })).sum = 0x00 ∧ (after (exec (.sumUpd 0x80) State.reset)).sum = 0x80 := by decide +kernel

-- V-SC1, V-SC2.
theorem test_sumBuf : (after (exec (.sumBuf 1 33) (holding frame))).sum = 0xB1 ∧ (after (exec (.sumBuf 1 26) (holding frame))).sum = 0x27 := by decide +kernel

-- V-SC6.
theorem test_sumBuf_past : (after (exec (.sumBuf 37 0) (holding frame))).errPos = 37 := by decide +kernel

-- V-E1.
theorem test_epRun : after (exec .epRun (holding frame)) = { holding frame with
    eStart := 0xA5, eLen := 0x0017, eCtrl := 0x1045,
    eCnt := 0, eSer := 0xECC1FA11, ePoff := 26, ePlen := 8, eChk := 0xB1, eEnd := 0x15, eToff := 36, eTlen := 0,
    eNent := 9, eState := 10, eData := [(0, 2)], sum := 0xB1, status := 0x03, outcome := some .ok } := by decide +kernel

-- V-E5, V-E6, V-E10: a mismatch alone, and one before a fatal error.
theorem test_epRun_checksum :
    let s := after (exec .epRun (holding (frame.set 34 0xB0)))
    let u := after (exec .epRun (holding ((frame.set 34 0xB0).set 35 0x00)))
    let v := after (exec .epRun (holding (frame.set 1 0x18)))
    (s.status = 0x07 ∧ s.err = 3 ∧ s.errPos = 34 ∧ s.errEnt = 7 ∧ s.eChk = 0xB0 ∧ s.sum = 0xB1 ∧ s.eState = 10) ∧
    (u.status = 0x06 ∧ u.err = 5 ∧ u.errPos = 35 ∧ u.eEnd = 0x00 ∧ u.eSer = 0xECC1FA11 ∧ u.sum = 0xB1) ∧
    v.status = 0x06 ∧ v.err = 1 ∧ v.errPos = 36 ∧ v.eChk = 0x15 ∧ v.sum = 0x63 := by decide +kernel

-- V-B1.
theorem test_envBuild : let s := after (exec (.envBuild 3972135441) { State.reset with
      pbuf := Mem.writeRange [] 0 request, status := 0x20 })
    bytesOf s.obuf 36 = frame ∧ s.cnt = 1 ∧ s.olen = 36 ∧ s.sum = 0xB1 ∧ s.status = 0x60 := by decide +kernel

-- V-B7.
theorem test_envBuild_unbuilt : (after (exec (.envBuild 3972135441) State.reset)) = { State.reset with
    err := 7, outcome := some (.error .sequenceError) } := by decide +kernel

-- V-M1.
theorem test_mbReq : let s := after (exec (.mbReq 0x0103 0x003C 0x0001) State.reset)
    bytesOf s.pbuf 8 = request ∧ s.crc = 0x0644 ∧ s.status = 0x20 ∧ s.olen = 0 := by decide +kernel

-- V-M4, V-B8.
theorem test_mbReq_after_build : let s := after (exec (.mbReq 0xFFFF 0xFFFF 0xFFFF) { State.reset with status := 0x60, olen := 36 })
    bytesOf s.pbuf 8 = [0xFF, 0xFF, 0xFF, 0xFF, 0xFF, 0xFF, 0x01, 0x94] ∧ s.status = 0x20 ∧ s.olen = 0 := by decide +kernel

-- V-M7.
theorem test_mpCmd : let s := after (exec (.mpCmd 0) (after (exec .epRun (holding frame))))
    s.mFc = 0x0103 ∧ s.mStart = 0x003C ∧ s.mCount = 1 ∧ s.mCrc = 0x0644 ∧ s.mToff = 8 ∧ s.mTlen = 0 ∧ s.mNent = 4 ∧
    s.mBase = 26 ∧ s.mSlen = 8 ∧ s.mState = 7 ∧ s.status = 0x0B := by decide +kernel

-- V-M10.
theorem test_mpCmd_short : let s := after (exec (.mpCmd 1) (holding (request.take 7)))
    s.err = 1 ∧ s.errPos = 6 ∧ s.errEnt = 3 ∧ s.mState = 4 ∧ s.mNent = 3 ∧ s.mCount = 1 ∧ s.mSlen = 7 ∧ s.status = 0 := by decide +kernel

-- V-R2.
theorem test_mpRsp : let s := after (exec (.mpRsp 1) (holdingWith 2 [0x01, 0x03, 0x04, 0x00, 0xEB, 0xFF, 0x38, 0xCA, 0x25]))
    s.mReg = [(0, 0x00EB), (1, 0xFF38)] ∧ s.mNreg = 2 ∧ s.mNent = 5 ∧ s.mToff = 9 ∧ s.mLen = 4 ∧ s.crc = 0x25CA ∧
    s.mState = 7 ∧ s.status = 0x88 := by decide +kernel

-- V-R13.
theorem test_mpRsp_short : let s := after (exec (.mpRsp 1) (holdingWith 4 [0x01, 0x03, 0x08, 0x00, 0xEB, 0xFF, 0x38, 0x56]))
    s.mReg = [(0, 0x00EB), (1, 0xFF38)] ∧ s.mNreg = 2 ∧ s.mNent = 4 ∧ s.mState = 3 ∧ s.err = 1 ∧ s.errPos = 7 ∧
    s.errEnt = 4 ∧ s.status = 0x80 := by decide +kernel

/-- The register table of V-R3. -/
def table : State :=
  { State.reset with mReg := [(0, 0x00EB), (1, 0xFF38), (2, 0x5678), (3, 0x1234)], mNreg := 4 }

-- V-F3.
theorem test_fxU16 : (after (exec (.fxU16 1) table)).rdata = 0x0000FF38 := by decide +kernel

-- V-F8.
theorem test_fxU16_past : (after (exec (.fxU16 4) table)).errPos = 11 ∧ (after (exec (.fxU16 4) table)).errEnt = 6 := by decide +kernel

-- V-F4.
theorem test_fxS16 : (after (exec (.fxS16 1) table)).rdata = 0xFFFFFF38 := by decide +kernel

-- V-F9.
theorem test_fxS16_past : (after (exec (.fxS16 255) table)).errPos = 513 ∧ (after (exec (.fxS16 255) table)).errEnt = 257 := by decide +kernel

-- V-F5.
theorem test_fxD32 : (after (exec (.fxD32 2) table)).rdata = 0x12345678 := by decide +kernel

-- V-F7.
theorem test_fxD32_past : (after (exec (.fxD32 3) table)).errPos = 9 ∧ (after (exec (.fxD32 3) table)).errEnt = 5 := by decide +kernel

-- V-E1.
theorem test_wireEnvelopeFrame : let s := after (exec (.wireEnvelopeFrame 0x0017 0x1045 0 0xECC1FA11 defaultPattern request 0xB1 0x15) State.reset)
    s = after (exec .epRun (holding frame)) := by decide +kernel

-- V-M13.
theorem test_wireModbusRequest : let s := after (exec (.wireModbusRequest 0x0103 0x003C 0x0001 0x0744) State.reset)
    s.mCrc = 0x0744 ∧ s.crc = 0x0644 ∧ s.status = 0x18 ∧ s.err = 3 ∧ s.errPos = 6 := by decide +kernel

-- V-R5.
theorem test_wireModbusResponseAck : let s := after (exec (.wireModbusResponseAck 0x0110 0xEC01) State.reset)
    s.mFc = 0x0110 ∧ s.mCrc = 0xEC01 ∧ s.mToff = 4 ∧ s.mNent = 2 ∧ s.status = 0x88 := by decide +kernel

-- V-R1.
theorem test_wireModbusResponseEmptyRead : let s := after (exec (.wireModbusResponseEmptyRead 0xF020) State.reset)
    s.mToff = 5 ∧ s.mNent = 3 ∧ s.mNreg = 0 ∧ s.status = 0x88 := by decide +kernel

-- V-R20.
theorem test_wireModbusResponseRead : let s := after (exec (.wireModbusResponseRead 0x02 [0x8000] 0x84D9) (holdingWith 1 []))
    s.mReg = [(0, 0x8000)] ∧ s.mNreg = 1 ∧ s.mToff = 7 ∧ s.mNent = 4 ∧ s.status = 0x88 := by decide +kernel

/-- Any byte string at the command port: the empty one is an illegal command (V-D1, R228). -/
theorem test_emptyCommand : after (step (State.reset.withPending [.command []])) =
    { State.reset with err := 6, outcome := some (.error .illegalCommand) } := by decide +kernel

/-! ## A state and operands that meet the hypotheses of each statement that has any -/

/-- The state after the worked frame is parsed: its payload is the request (V-E1). -/
def parsed : State := after (exec .epRun (holding frame))

/-- The state after the request is built (V-M1). -/
def built : State := after (exec (.mbReq 0x0103 0x003C 0x0001) State.reset)

/-- A read response of two registers, and the state that holds it with two catalog registers (V-R2). -/
def response : List Byte := [0x01, 0x03, 0x04, 0x00, 0xEB, 0xFF, 0x38, 0xCA, 0x25]

/-- What the envelope parser is given in V-E13: a frame with no payload. -/
def emptyFrame : List Byte :=
  [0xA5, 0x0F, 0, 0x10, 0x45, 0, 0, 1, 0, 0, 0, 2, 0, 0, 0, 0, 0, 0, 0, 0, 0, 0, 0, 0, 0, 0, 0x67, 0x15]

/-- The invariant holds in a state by deciding its clauses. -/
theorem inv_of_clauses (s : State) (h : (s.cfg.legal ∧
    (Mem.wf s.ibuf = true ∧ Mem.wf s.pbuf = true ∧ Mem.wf s.obuf = true ∧ Mem.wf s.eData = true ∧ Mem.wf s.mReg = true) ∧
    (Mem.below s.cfg.ibufMax s.ibuf = true ∧ Mem.below reqLen s.pbuf = true ∧ Mem.below s.cfg.obufLen s.obuf = true ∧
      Mem.below s.cfg.dataLen s.eData = true ∧ Mem.below s.cfg.catalogRegs s.mReg = true) ∧
    s.ilen.toNat ≤ s.cfg.ibufMax ∧ (s.olen.toNat = if s.flag .obValid then s.cfg.obufLen else 0) ∧
    (s.flag .obValid = true → s.flag .pbValid = true) ∧ s.err.toNat ≤ 7 ∧
    ((s.eState.toNat = 0 ∧ s.eNent.toNat = 0) ∨ (s.eState.toNat = s.eNent.toNat + 1 ∧ s.eNent.toNat ≤ 9)) ∧
    s.mState.toNat ≤ 7 ∧
    (s.flag .eHaspl = true → s.ePoff.toNat = s.cfg.payloadOffset ∧ s.eLen.toNat = s.ePlen.toNat + s.cfg.lenBias ∧
      s.ePoff.toNat + s.ePlen.toNat ≤ s.ilen.toNat ∧ 7 ≤ s.eNent.toNat) ∧
    (s.flag .eValid = true → s.flag .eHaspl = true ∧ s.eStart = startDelim ∧ s.eEnd = endDelim ∧ s.eNent.toNat = 9 ∧
      s.eToff.toNat = s.cfg.payloadOffset + 2 + s.ePlen.toNat ∧ s.eToff.toNat + s.eTlen.toNat = s.ilen.toNat) ∧
    s.mNreg.toNat ≤ s.cfg.catalogRegs ∧
    (s.flag .mValid = true → s.mState.toNat = 7 ∧ s.mToff.toNat + s.mTlen.toNat = s.mSlen.toNat ∧
      s.mBase.toNat + s.mSlen.toNat ≤ s.ilen.toNat))) : MachineInv s := by
  obtain ⟨a, b, c, d, e, f, g, h, i, j, k, l, m⟩ := h
  exact ⟨a, b, c, d, e, f, g, h, i, j, k, l, m⟩

theorem witness_UnimplementedNumbersAreIllegal :
    ∀ a ∈ [0x0C, 0x0F, 0x1C, 0x1F, 0x2B, (0xFF : Byte)],
      (0x0C ≤ a.toNat ∧ a.toNat ≤ 0x0F) ∨ (0x1C ≤ a.toNat ∧ a.toNat ≤ 0x1F) ∨ 0x2B ≤ a.toNat := by decide +kernel

theorem witness_RdReturnsEachScalarRegister :
    ∀ a ∈ [0x0C, 0x0F, 0x1C, 0x1F, 0x2B, (0xFF : Byte)],
      (0x0C ≤ a.toNat ∧ a.toNat ≤ 0x0F) ∨ (0x1C ≤ a.toNat ∧ a.toNat ≤ 0x1F) ∨ 0x2B ≤ a.toNat :=
  witness_UnimplementedNumbersAreIllegal

theorem witness_WrWritesOnlyCounterAndControl :
    (0x0000FFFF : Word).toNat ≤ 0xFFFF ∧ 0xFFFF < (0x00010000 : Word).toNat ∧ (0x05 : Byte) ≠ 0x06 ∧ (0x08 : Byte) ≠ 0x07 := by decide +kernel

theorem witness_IbLoadAppendsWholeOrNotAtAll :
    let s := { holding frame with cfg := { Config.recommended with ibufMax := 40 } }
    ([(1 : Byte), 2].length = (2 : Byte).toNat ∧ ([] : List Byte).length = (0 : Byte).toNat) ∧
    (Mem.wf s.ibuf = true ∧ s.cfg.ibufMax ≤ 65535 ∧ s.ilen.toNat + [(1 : Byte), 2, 3, 4].length ≤ s.cfg.ibufMax) ∧
    s.cfg.ibufMax < s.ilen.toNat + [(1 : Byte), 2, 3, 4, 5].length := by decide +kernel

theorem witness_ReadOutCommandsFollowTheirRules :
    ((35 : Half).toNat < (holding frame).ilen.toNat ∧ ¬ (36 : Half).toNat < (holding frame).ilen.toNat) ∧
    ((35 : Half).toNat < ({ built with olen := 36 } : State).olen.toNat ∧ ¬ (0 : Half).toNat < State.reset.olen.toNat) ∧
    ((built.flag .pbValid = true ∧ (7 : Byte).toNat < 8) ∧ ¬ (8 : Byte).toNat < 8 ∧ State.reset.flag .pbValid = false) ∧
    built.cfg.dataPattern.length = 15 ∧ (14 : Byte).toNat < 15 ∧ ¬ (15 : Byte).toNat < 15 := by decide +kernel

theorem witness_CrcBufAgreesWithByteSerialCrc :
    (6 : Half).toNat + (2 : Half).toNat ≤ (holding request).ilen.toNat ∧
    (8 : Half).toNat + (0 : Half).toNat ≤ (holding request).ilen.toNat := by decide +kernel

theorem witness_CrcBufRangePastTheEndRaises :
    (holding request).ilen.toNat < (9 : Half).toNat + (0 : Half).toNat ∧
    (holding request).ilen.toNat < (0xFFFF : Half).toNat + (0xFFFF : Half).toNat := by decide +kernel

theorem witness_CrcStepIsABijection :
    crcStep 0x1234 0x56 = crcStep 0x1234 0x56 := by decide +kernel

theorem witness_Sum8IsTheTotalModulo256 :
    [(1 : Byte), 2].Perm [2, 1] := by decide +kernel

theorem witness_SingleByteErrorChangesTheSum :
    sum8 ([1] ++ 0xFF :: [2]) = sum8 ([1] ++ 0xFF :: [2]) := by decide +kernel

theorem witness_SumBufAgreesWithByteSerialSum :
    ((holding request).ilen.toNat < (9 : Half).toNat + (0 : Half).toNat ∧
      (holding request).ilen.toNat < (0xFFFF : Half).toNat + (0xFFFF : Half).toNat) ∧
    (8 : Half).toNat + (0 : Half).toNat ≤ (holding request).ilen.toNat ∧
    (6 : Half).toNat + (2 : Half).toNat ≤ (holding request).ilen.toNat ∧
    (Mem.readRange (holding request).ibuf (6 : Half).toNat (2 : Half).toNat).Perm [0x06, 0x44] := by decide +kernel

theorem witness_EpRunExtractsEveryField :
    (holding (frame ++ [0xDE, 0xAD, 0])).cfg.dataPattern.length = 15 ∧ defaultPattern.length = 15 ∧
    (0x0017 : Half).toNat = 15 + request.length ∧
    (holding (frame ++ [0xDE, 0xAD, 0])).holdsInput (0xA5 :: (le16 0x0017 ++ be16 0x1045 ++ be16 0 ++ le32 0xECC1FA11 ++
      defaultPattern ++ request ++ [0xB1, 0x15] ++ [0xDE, 0xAD, 0])) := ⟨by decide +kernel, by decide +kernel, by decide +kernel, by decide +kernel, by decide +kernel⟩

theorem witness_EpRunExtractsEveryField_empty :
    (0x000F : Half).toNat = 15 + ([] : List Byte).length ∧
    (holding emptyFrame).holdsInput (0xA5 :: (le16 0x000F ++ be16 0x1045 ++ be16 0 ++ le32 1 ++
      defaultPattern ++ [] ++ [0x67, 0x15] ++ [])) := ⟨by decide +kernel, by decide +kernel, by decide +kernel⟩

theorem witness_EpRunTruncatedInTheHeader :
    ∀ n ∈ [0, 1, 2, 3, 4, 5, 6, 7, 10, 11, 25], let s := holding (frame.take n)
    s.cfg.dataPattern.length = 15 ∧ s.ilen.toNat < 26 ∧ (0 < s.ilen.toNat → Mem.read s.ibuf 0 = 0xA5) := by decide +kernel

theorem witness_EpRunStopsAtThePayloadOrTheTail :
    let input (len : Half) (rest : List Byte) : List Byte :=
      0xA5 :: (le16 len ++ be16 0x1045 ++ be16 0 ++ le32 0xECC1FA11 ++ defaultPattern ++ rest)
    let meets (len : Half) (rest : List Byte) : Prop :=
      (holding (input len rest)).cfg.dataPattern.length = 15 ∧ defaultPattern.length = 15 ∧
      (holding (input len rest)).holdsInput (input len rest)
    (meets 0x000E (request ++ [0xB1, 0x15]) ∧ (0x000E : Half).toNat < 15) ∧
    (meets 0x0017 (request.take 7) ∧ (0x0017 : Half).toNat = 15 + 8 ∧ (request.take 7).length < 8) ∧
    (meets 0x0017 request ∧ request.length = 8) ∧
    (meets 0x0017 (request ++ [0xB0]) ∧ (0x0017 : Half).toNat = 15 + request.length) ∧
    (meets 0x000F [] ∧ (0x000F : Half).toNat = 15 + 0 ∧ ([] : List Byte).length = 0) :=
  ⟨⟨⟨by decide, by decide, by decide +kernel, by decide +kernel⟩, by decide⟩,
    ⟨⟨by decide, by decide, by decide +kernel, by decide +kernel⟩, by decide, by decide⟩,
    ⟨⟨by decide, by decide, by decide +kernel, by decide +kernel⟩, by decide⟩,
    ⟨⟨by decide, by decide, by decide +kernel, by decide +kernel⟩, by decide⟩,
    ⟨⟨by decide, by decide, by decide +kernel, by decide +kernel⟩, by decide, by decide⟩⟩

theorem witness_WrongDelimitersAreFatal :
    (0 < (holding [0xA4]).ilen.toNat ∧ Mem.read (holding [0xA4]).ibuf 0 ≠ 0xA5) ∧
    (State.reset.cfg.dataPattern.length = 15 ∧ defaultPattern.length = 15 ∧
      (0x0017 : Half).toNat = 15 + request.length ∧ (0x00 : Byte) ≠ 0x15 ∧
      (holding ((frame.set 34 0xB0).set 35 0x00)).holdsInput (0xA5 :: (le16 0x0017 ++ be16 0x1045 ++ be16 0 ++
        le32 0xECC1FA11 ++ defaultPattern ++ request ++ [0xB0, 0x00] ++ []))) :=
  ⟨by decide +kernel, by decide, by decide, by decide, by decide, by decide +kernel, by decide +kernel⟩

theorem witness_ValidEnvelopeParsePromises :
    (holding frame).cfg.dataPattern.length = 15 ∧ exec .epRun (holding frame) = .next parsed ∧ parsed.flag .eValid = true := ⟨by decide +kernel, next_of_goes (by decide +kernel), by decide +kernel⟩

theorem witness_EpRunIsIdempotent :
    exec .epRun (holding (frame.take 34)) = .next (after (exec .epRun (holding (frame.take 34)))) := next_of_goes (by decide +kernel)

theorem witness_EnvBuildAssemblesTheFrame :
    State.reset.flag .pbValid = false ∧ built.flag .pbValid = true ∧ Mem.wf built.obuf = true ∧
    built.cfg.dataPattern = [0x02, 0, 0, 0, 0, 0, 0, 0, 0, 0, 0, 0, 0, 0, 0] := by decide +kernel

theorem witness_MbReqAssemblesTheRequest :
    Mem.wf built.pbuf = true := by decide +kernel

theorem witness_MpCmdExtractsTheRequest :
    parsed.holdsSpan 0 (be16 0x0103 ++ be16 0x003C ++ be16 0x0001 ++ le16 0x0644 ++ []) ∧
    (holding (request ++ [0xAA])).holdsSpan 1 (be16 0x0103 ++ be16 0x003C ++ be16 0x0001 ++ le16 0x0644 ++ [0xAA]) := ⟨⟨by decide +kernel, by decide +kernel, by decide +kernel, by decide +kernel⟩,
    ⟨by decide +kernel, by decide +kernel, by decide +kernel, by decide +kernel⟩⟩

theorem witness_MpCmdTruncated :
    State.reset.holdsSpan 1 [] ∧ ([] : List Byte).length < 8 ∧
    (holding (request.take 7)).holdsSpan 1 (request.take 7) ∧ (request.take 7).length < 8 := ⟨⟨by decide +kernel, by decide +kernel, by decide +kernel, by decide +kernel⟩, by decide,
    ⟨by decide +kernel, by decide +kernel, by decide +kernel, by decide +kernel⟩, by decide⟩

theorem witness_SequenceErrorsChangeOnlyTheRecord :
    State.reset.flag .pbValid = false ∧ State.reset.flag .eHaspl = false ∧ built.flag .eHaspl = false := by decide +kernel

theorem witness_SelectorsAboveOneAreIllegal :
    1 < (2 : Byte).toNat ∧ 1 < (255 : Byte).toNat := by decide

theorem witness_MpRspParsesAnAcknowledgement :
    (0x0110 : Half) ≠ 0x0103 ∧ (holding [0x01, 0x10, 0x01, 0xEC]).holdsSpan 1 (be16 0x0110 ++ le16 0xEC01 ++ []) := ⟨by decide, ⟨by decide +kernel, by decide +kernel, by decide +kernel, by decide +kernel⟩⟩

theorem witness_MpRspParsesAnEmptyRead :
    (holding [0x01, 0x03, 0x00, 0x20, 0xF0]).holdsSpan 1 ([0x01, 0x03, 0x00] ++ le16 0xF020 ++ []) := ⟨by decide +kernel, by decide +kernel, by decide +kernel, by decide +kernel⟩

theorem witness_MpRspExtractsTheRegisterTable :
    let s := holdingWith 2 response
    (0x04 : Byte) ≠ 0 ∧ 1 ≤ s.cfg.catalogRegs ∧ s.cfg.catalogRegs ≤ 127 ∧ [(0x00EB : Half), 0xFF38].length = s.cfg.catalogRegs ∧
    s.holdsSpan 1 ([0x01, 0x03, 0x04] ++ tableBytes [0x00EB, 0xFF38] ++ le16 0x25CA ++ []) := ⟨by decide, by decide, by decide, by decide, ⟨by decide +kernel, by decide +kernel, by decide +kernel, by decide +kernel⟩⟩

theorem witness_MpRspShortSpansRaise :
    (State.reset.holdsSpan 1 [] ∧ ([] : List Byte).length < 2) ∧
    ((holding [0x01]).holdsSpan 1 [0x01] ∧ [(0x01 : Byte)].length < 2) ∧
    (holding [0x01, 0x03]).holdsSpan 1 [0x01, 0x03] ∧
    ((holding [0x01, 0x10, 0x01]).holdsSpan 1 [0x01, 0x10, 0x01] ∧ 2 ≤ [(0x01 : Byte), 0x10, 0x01].length ∧
      [(0x01 : Byte), 0x10, 0x01].length < 4 ∧ ofBE16 [0x01, 0x10, 0x01] ≠ 0x0103) ∧
    ((holding [0x01, 0x03, 0x00, 0x20]).holdsSpan 1 [0x01, 0x03, 0x00, 0x20] ∧
      [(0x01 : Byte), 0x03, 0x00, 0x20].take 3 = [0x01, 0x03, 0x00] ∧ [(0x01 : Byte), 0x03, 0x00, 0x20].length < 5) := ⟨⟨⟨by decide +kernel, by decide +kernel, by decide +kernel, by decide +kernel⟩, by decide⟩,
    ⟨⟨by decide +kernel, by decide +kernel, by decide +kernel, by decide +kernel⟩, by decide⟩,
    ⟨by decide +kernel, by decide +kernel, by decide +kernel, by decide +kernel⟩,
    ⟨⟨by decide +kernel, by decide +kernel, by decide +kernel, by decide +kernel⟩, by decide, by decide,
      by decide⟩,
    ⟨⟨by decide +kernel, by decide +kernel, by decide +kernel, by decide +kernel⟩, by decide, by decide⟩⟩

theorem witness_MpRspTruncatedTableKeepsItsRegisters :
    let s := holdingWith 4 [0x01, 0x03, 0x08, 0x00, 0xEB, 0xFF, 0x38, 0x56]
    let u := holdingWith 2 [0x01, 0x03, 0x04, 0x00, 0xEB, 0xFF, 0x38]
    ((0x08 : Byte) ≠ 0 ∧ s.cfg.catalogRegs ≤ 127 ∧ [(0x00EB : Half), 0xFF38].length ≤ s.cfg.catalogRegs ∧ [(0x56 : Byte)].length < 2 ∧
      s.holdsSpan 1 ([0x01, 0x03, 0x08] ++ tableBytes [0x00EB, 0xFF38] ++ [0x56])) ∧
    ((0x04 : Byte) ≠ 0 ∧ [(0x00EB : Half), 0xFF38].length ≤ u.cfg.catalogRegs ∧ ([] : List Byte).length < 2 ∧
      u.holdsSpan 1 ([0x01, 0x03, 0x04] ++ tableBytes [0x00EB, 0xFF38] ++ [])) := ⟨⟨by decide, by decide, by decide, by decide, ⟨by decide +kernel, by decide +kernel, by decide +kernel, by decide +kernel⟩⟩,
    ⟨by decide, by decide, by decide, ⟨by decide +kernel, by decide +kernel, by decide +kernel, by decide +kernel⟩⟩⟩

theorem witness_ValidResponseParsePromises :
    let t := after (exec (.mpRsp 1) (holdingWith 2 response))
    (holdingWith 2 response).cfg.catalogRegs ≤ 127 ∧ exec (.mpRsp 1) (holdingWith 2 response) = .next t ∧
    (t.outcome = some .ok ∨ t.outcome = some .okFlagged) ∧ t.flag .mValid = true ∧ t.mFc = 0x0103 ∧ t.mLen ≠ 0 := ⟨by decide, next_of_goes (by decide +kernel), by decide +kernel, by decide +kernel, by decide +kernel, by decide +kernel⟩

theorem witness_ValidResponseParsePromises_others :
    let t := after (exec (.mpRsp 1) (holding [0x01, 0x10, 0x01, 0xEC]))
    let u := after (exec (.mpRsp 1) (holding [0x01, 0x03, 0x00, 0x20, 0xF0]))
    (exec (.mpRsp 1) (holding [0x01, 0x10, 0x01, 0xEC]) = .next t ∧ t.outcome = some .ok ∧ t.flag .mValid = true ∧ t.mFc ≠ 0x0103) ∧
    (exec (.mpRsp 1) (holding [0x01, 0x03, 0x00, 0x20, 0xF0]) = .next u ∧ u.outcome = some .ok ∧ u.flag .mValid = true ∧
      u.mFc = 0x0103 ∧ u.mLen = 0) := ⟨⟨next_of_goes (by decide +kernel), by decide +kernel, by decide +kernel, by decide +kernel⟩,
    ⟨next_of_goes (by decide +kernel), by decide +kernel, by decide +kernel, by decide +kernel, by decide +kernel⟩⟩

theorem witness_RegisterViewsReadTheTable :
    (table.mNreg.toNat ≤ table.cfg.catalogRegs ∧ (3 : Byte).toNat < table.mNreg.toNat) ∧
    (2 : Byte).toNat + 1 < table.mNreg.toNat ∧ table.mNreg.toNat ≤ (4 : Byte).toNat ∧
    table.mNreg.toNat ≤ (3 : Byte).toNat + 1 := by decide +kernel

theorem witness_WireRowsRunTheHostsProcedure :
    isWireRow (.wireModbusRequest 0 0 0 0) = true := by decide +kernel

theorem witness_WireFrameIsParsed :
    Mem.wf State.reset.ibuf = true ∧ State.reset.cfg.ibufMax ≤ 65535 ∧ State.reset.cfg.dataPattern.length = 15 ∧
    defaultPattern.length = 15 ∧ (0x0017 : Half).toNat = 15 + request.length ∧ 28 + request.length ≤ State.reset.cfg.ibufMax ∧
    (0x000F : Half).toNat = 15 + ([] : List Byte).length := by decide +kernel

theorem witness_WireModbusMessagesAreParsed :
    let s := holdingWith 2 []
    Mem.wf s.ibuf = true ∧ s.cfg.legal ∧ (0x0110 : Half) ≠ 0x0103 ∧ (0x04 : Byte) ≠ 0 ∧
    [(0x00EB : Half), 0xFF38].length = s.cfg.catalogRegs ∧ 5 + 2 * [(0x00EB : Half), 0xFF38].length ≤ s.cfg.ibufMax := by decide +kernel

theorem witness_BuiltFrameParsesBackToItsOperands :
    MachineInv { built with cnt := 0xFFFF } := inv_of_clauses _ (by decide +kernel)

theorem witness_DecodeOfEncodeIsTheInstruction :
    Instr.wellFormed (.wireModbusResponseRead 4 [0x00EB, 0xFF38] 0x25CA) = true ∧ Instr.wellFormed (.mpCmd 1) = true := by decide +kernel

theorem witness_EncodeOfDecodeIsTheInput :
    decodeInput (.command [0x09, 0x00]) = .ok (.ibLoad []) := by decide +kernel

theorem witness_StepRunsTheDecodedInstruction :
    (State.reset.withPending [.command [0x20]]).pending = [.command [0x20]] ∧ decodeInput (.command [0x20]) = .ok .epRun ∧
    State.reset.pending = [] ∧ decodeTableWord 8 0x20 = some .epRun := by decide +kernel

theorem witness_IllegalCommandsChangeOnlyTheRecord :
    decode [] = .error .emptyCommand ∧ decode [0xFF, 0, 0] = .error (.reservedOpcode 0xFF) := by decide +kernel

theorem witness_UnlistedOpcodesAreReserved :
    ∀ op ∈ [(0x05 : Byte), 0x07, 0x0E, 0x3B, 0xFF],
    op.toNat ∉ [0x00, 0x01, 0x02, 0x03, 0x04, 0x08, 0x09, 0x0A, 0x0B, 0x0C, 0x0D, 0x10, 0x11, 0x12, 0x18, 0x19, 0x1A,
      0x20, 0x21, 0x30, 0x31, 0x32, 0x38, 0x39, 0x3A] := by decide +kernel

theorem witness_InvariantHoldsAtReset :
    ({ Config.recommended with catalogRegs := 1, ibufMax := 36 } : Config).legal ∧
    ({ Config.recommended with catalogRegs := 127, ibufMax := 65535 } : Config).legal := by decide +kernel

theorem witness_EveryStepKeepsTheInvariant :
    let s := parsed.withPending [.command [0x31, 0x00]]
    MachineInv s ∧ step s = .next (after (step s)) := ⟨inv_of_clauses _ (by decide +kernel), next_of_goes (by decide +kernel)⟩

theorem witness_NoStepStopsTheMachine :
    MachineInv (parsed.withPending [.command [0x09, 0x01, 0x00]]) := inv_of_clauses _ (by decide +kernel)

theorem witness_OnlyTheNamedCommandsWrite :
    exec (.mpCmd 0) parsed = .next (after (exec (.mpCmd 0) parsed)) ∧ Instr.mpCmd 0 ≠ .reset ∧ runsMpCmd (.mpCmd 0) ∧
    runsEpRun (.wireEnvelopeFrame 0 0 0 0 defaultPattern [] 0 0) ∧ runsMpRsp (.wireModbusResponseAck 0x0110 0) :=
  ⟨next_of_goes (by decide +kernel), by decide, .inl ⟨0, rfl⟩, .inr ⟨rfl, rfl⟩, .inr ⟨rfl, rfl⟩⟩

theorem witness_ErrorRecordFollowsTheOutcome :
    exec .epRun (holding (frame.set 34 0xB0)) = .next (after (exec .epRun (holding (frame.set 34 0xB0)))) ∧
    (after (exec .epRun (holding (frame.set 34 0xB0)))).outcome = some .okFlagged := ⟨next_of_goes (by decide +kernel), by decide +kernel⟩

end Sys2Proof.Tests
end

/-! What 00_scope.md says of byte order (R11), of the state a run starts in (R8, R20) and of how a command ends (R15). -/

namespace Sys2Proof

/-! ## Byte order (R11) -/

/-- A byte put after a word is its new lowest digit to base 256. -/
theorem toNat_append_byte {w : Nat} (x : BitVec w) (b : Byte) : (x ++ b).toNat = x.toNat * 256 + b.toNat := by
  rw [BitVec.toNat_append, ← Nat.shiftLeft_add_eq_or_of_lt b.isLt, Nat.shiftLeft_eq]

/-- The bytes of `le32` are the bit fields of the word, the lowest first. -/
theorem getElem_le32 (v : Word) (k : Nat) (h : k < (le32 v).length) : (le32 v)[k] = v.extractLsb' (8 * k) 8 := by
  match k, h with
  | 0, _ => rfl
  | 1, _ => rfl
  | 2, _ => rfl
  | 3, _ => rfl
  | k + 4, h => simp at h

/-- Settles O10: the sums from `toNat_append_byte`, digit by digit; the inverses are the laws of Sys2Proof/Laws/Bytes.lean. -/
theorem byteOrderFunctionsAreInverse : Obligations.ByteOrderFunctionsAreInverse := by
  refine ⟨fun a b => ⟨?_, ?_, be16_ofBE16 a b [], le16_ofLE16 a b []⟩, fun a b c d => ⟨?_, le32_ofLE32 a b c d []⟩,
    fun v => ⟨ofBE16_be16 v, ofLE16_le16 v⟩, ofLE32_le32, fun v => ⟨rfl, rfl⟩, getElem_le32⟩
  · exact toNat_append_byte a b
  · exact toNat_append_byte b a
  · show (d ++ c ++ b ++ a : Word).toNat = _
    rw [toNat_append_byte, toNat_append_byte, toNat_append_byte]
    omega

end Sys2Proof

namespace Sys2Proof.Machine

/-! ## The invariant at reset (R8, R20, R261) -/

theorem flag_reset (c : Config) (f : Flag) : State.flag { State.reset with cfg := c } f = false :=
  BitVec.getLsbD_zero

/-- With nothing flagged, nothing stored and every count 0, only the legality of the parameters is left to ask for. -/
theorem machineInv_reset {c : Config} (hc : c.legal) : MachineInv { State.reset with cfg := c } where
  cfgLegal := hc
  arraysWf := ⟨rfl, rfl, rfl, rfl, rfl⟩
  arraysFit := ⟨rfl, rfl, rfl, rfl, rfl⟩
  ilenMax := Nat.zero_le _
  olenValid := by rw [flag_reset]; rfl
  requestBuilt h := absurd h (by simp [flag_reset])
  errRange := Nat.zero_le _
  envelopeAt := .inl ⟨rfl, rfl⟩
  modbusRange := Nat.zero_le _
  payloadFits h := absurd h (by simp [flag_reset])
  envelopeValid h := absurd h (by simp [flag_reset])
  registersFit := Nat.zero_le _
  modbusValid h := absurd h (by simp [flag_reset])

/-- Settles O50: the recommended parameters of `State.reset` are one legal choice. -/
theorem invariantHoldsAtReset : Obligations.InvariantHoldsAtReset :=
  ⟨machineInv_reset (c := Config.recommended) (by decide), fun _ => machineInv_reset⟩

/-! ## How a command ends (R15, R220, R226)

A command is a run of parts. `Run.Reports` says of a part what the obligation says of a whole command; it composes along
`Run.andThen`, and at the end of the command it is the obligation. -/

/-- The error record of `t` is that of `s` (R26). -/
structure State.SameRecord (s t : State) : Prop where
  err : t.err = s.err
  errPos : t.errPos = s.errPos
  errEnt : t.errEnt = s.errEnt

/-- The error record and the read latch of `t` are those of `s`. -/
structure State.SameRecordAndLatch (s t : State) : Prop where
  record : s.SameRecord t
  rdata : t.rdata = s.rdata

/-- The state `t` reports an outcome with the record that goes with it: an error has its code recorded and leaves the
latch of `s`, a flag is code 3. What success and a flag further allow is left to `okCase` and `flagCase`. -/
def OutcomeRecorded (okCase flagCase : Prop) (s t : State) : Prop :=
  (t.outcome = some .ok ∧ okCase) ∨ (t.outcome = some .okFlagged ∧ t.err = 3 ∧ flagCase) ∨
  ∃ e, t.outcome = some (.error e) ∧ t.err = e.code ∧ t.rdata = s.rdata ∧ e ≠ .checksumMismatch

theorem OutcomeRecorded.imp {ok ok' flag flag' : Prop} {s t : State} (h : OutcomeRecorded ok flag s t) (ho : ok → ok')
    (hf : flag → flag') : OutcomeRecorded ok' flag' s t :=
  Or.imp (And.imp_right ho) (Or.imp_left (And.imp_right (And.imp_right hf))) h

/-- Only the latch of the first state matters. -/
theorem OutcomeRecorded.of_rdata_eq {ok flag : Prop} {s u t : State} (h : OutcomeRecorded ok flag u t)
    (hu : u.rdata = s.rdata) : OutcomeRecorded ok flag s t := by
  rwa [OutcomeRecorded, hu] at h

/-- A part of a command, run from `s`, either goes on in a state that is `kept` or has ended with an error or, where
`flag` allows it, a flag, and that is recorded. -/
def Run.Reports (kept : State → State → Prop) (flag : Prop) (s : State) : Run → Prop
  | .go t => kept s t
  | .ended t => OutcomeRecorded False flag s t
  | .fault _ => True

section
variable {kept : State → State → Prop} {flag : Prop} {s : State}

/-- Raising, after writes that left the latch (R226). -/
theorem raise_reports {t : State} {e : ErrorName} {pos ent : Nat} (ht : t.rdata = s.rdata) (he : e ≠ .checksumMismatch) :
    (raise e pos ent t).Reports kept flag s :=
  .inr (.inr ⟨e, rfl, rfl, ht, he⟩)

/-- Flagging (R224, R226). -/
theorem flagMismatch_reports {t : State} {pos ent : Nat} (hf : flag) : (flagMismatch pos ent t).Reports kept flag s :=
  .inr (.inl ⟨rfl, rfl, hf⟩)

theorem memRead_reports {b : Buffer} {off n : Nat} {next : List Byte → Run}
    (h : ∀ bytes, (next bytes).Reports kept flag s) : (memRead s b off n next).Reports kept flag s := by
  rcases memRead_cases s b off n next with ⟨-, e⟩ | ⟨-, e⟩ <;> rw [e]
  · exact h _
  · exact trivial

theorem regRead_reports {i : Nat} {next : Half → Run} (h : ∀ v, (next v).Reports kept flag s) :
    (regRead s i next).Reports kept flag s := by
  rw [regRead]
  split
  · exact h _
  · exact trivial

theorem take_reports {pos n ent : Nat} {next : List Byte → Run} (h : ∀ bytes, (next bytes).Reports kept flag s) :
    (take s pos n ent next).Reports kept flag s := by
  rcases take_cases s pos n ent next with ⟨-, e⟩ | ⟨-, e⟩ <;> rw [e]
  · exact h _
  · exact raise_reports rfl (by decide)

theorem mtake_reports {pos n ent : Nat} {e : ErrorName} (he : e ≠ .checksumMismatch) {next : List Byte → Run}
    (h : ∀ bytes, (next bytes).Reports kept flag s) : (mtake s pos n ent e next).Reports kept flag s := by
  rcases mtake_cases s pos n ent e next with ⟨-, -, e⟩ | ⟨-, e⟩ | ⟨-, -, e⟩ <;> rw [e]
  · exact h _
  · exact raise_reports rfl he
  · exact trivial

theorem readByteOut_reports (b : Buffer) (a len : Nat) : (readByteOut s b a len).Reports State.SameRecord flag s := by
  rw [readByteOut]
  split
  · exact raise_reports rfl (by decide)
  · exact memRead_reports fun _ => ⟨rfl, rfl, rfl⟩

/-- What a part reports from `t`, it reports from a state before `t` with the same record and latch. -/
theorem Run.Reports.of_kept {r : Run} {t : State} (hr : r.Reports State.SameRecordAndLatch flag t)
    (h : s.SameRecordAndLatch t) : r.Reports State.SameRecordAndLatch flag s := by
  obtain ⟨⟨he, hp, hn⟩, hd⟩ := h
  cases r with
  | go u =>
    obtain ⟨⟨he', hp', hn'⟩, hd'⟩ := hr
    exact ⟨⟨he'.trans he, hp'.trans hp, hn'.trans hn⟩, hd'.trans hd⟩
  | ended u => exact OutcomeRecorded.of_rdata_eq hr hd
  | fault e => exact trivial

theorem andThen_reports {r : Run} {f : State → Run} (hr : r.Reports State.SameRecordAndLatch flag s)
    (hf : ∀ t, (f t).Reports State.SameRecordAndLatch flag t) :
    (r.andThen f).Reports State.SameRecordAndLatch flag s := by
  cases r with
  | go t => exact (hf t).of_kept hr
  | ended t => exact hr
  | fault e => exact trivial

/-- Parts of a command that each report do so in sequence. -/
theorem runAll_reports {parts : List (State → Run)}
    (h : ∀ f ∈ parts, ∀ t, (f t).Reports State.SameRecordAndLatch flag t) (s : State) :
    (runAll parts s).Reports State.SameRecordAndLatch flag s := by
  induction parts generalizing s with
  | nil => exact ⟨⟨rfl, rfl, rfl⟩, rfl⟩
  | cons f rest ih =>
    obtain ⟨hf, hrest⟩ := List.forall_mem_cons.1 h
    exact andThen_reports (hf s) (ih hrest)

end

/-- A whole command run from `s` records its outcome: success leaves the record. -/
def CommandReports (flag : Prop) (s : State) (o : Host.Outcome State Fault Refusal) : Prop :=
  ∀ t, o = .next t → OutcomeRecorded (s.SameRecord t) flag s t

section
variable {kept : State → State → Prop} {flag : Prop} {s : State}

/-- The end of a command whose parts leave at least the record (R161). -/
theorem Run.Reports.finish {r : Run} (hr : r.Reports kept flag s) (hk : ∀ u, kept s u → s.SameRecord u) :
    CommandReports flag s r.finish := by
  intro t h
  rcases finish_next h with ⟨u, rfl, rfl⟩ | rfl
  · obtain ⟨he, hp, hn⟩ := hk u hr
    exact .inl ⟨rfl, ⟨he, hp, hn⟩⟩
  · exact OutcomeRecorded.imp hr False.elim id

theorem completed_reports {u : State} (h : s.SameRecord u) : CommandReports flag s (completed u) :=
  Run.Reports.finish (kept := State.SameRecord) (r := .go u) h fun _ => id

theorem raise_finish_reports {e : ErrorName} {pos ent : Nat} (he : e ≠ .checksumMismatch) :
    CommandReports flag s (raise e pos ent s).finish :=
  Run.Reports.finish (kept := State.SameRecord) (raise_reports rfl he) fun _ => id

/-- The usual shape of a command: out of range it raises, else it runs. -/
theorem raiseOr_reports {c : Prop} [Decidable c] {e : ErrorName} {pos ent : Nat} {r : Run} (he : e ≠ .checksumMismatch)
    (hr : r.Reports State.SameRecord flag s) :
    CommandReports flag s (if c then (raise e pos ent s).finish else r.finish) := by
  split
  · exact raise_finish_reports he
  · exact hr.finish fun _ => id

end

/-! ### The commands that neither parse nor clear the record -/

section
variable {flag : Prop} (s : State)

theorem execRd_reports (a : Byte) : CommandReports flag s (execRd a s) := by
  rw [execRd]
  split
  · exact raise_finish_reports (by decide)
  · exact completed_reports ⟨rfl, rfl, rfl⟩

theorem execWr_reports (r : Byte) (v : Word) : CommandReports flag s (execWr r v s) := by
  rw [execWr]
  split
  · exact raise_finish_reports (by decide)
  split
  · exact raise_finish_reports (by decide)
  split
  · exact completed_reports ⟨rfl, rfl, rfl⟩
  · exact completed_reports ⟨rfl, rfl, rfl⟩

theorem execIbLoad_reports (data : List Byte) : CommandReports flag s (execIbLoad data s) :=
  raiseOr_reports (r := .go _) (by decide) ⟨rfl, rfl, rfl⟩

theorem readByteOut_finish_reports (b : Buffer) (a len : Nat) : CommandReports flag s (readByteOut s b a len).finish :=
  (readByteOut_reports b a len).finish fun _ => id

theorem execRdd_reports (a : Byte) : CommandReports flag s (execRdd a s) :=
  raiseOr_reports (by decide) (memRead_reports fun _ => ⟨rfl, rfl, rfl⟩)

theorem execCrcBuf_reports (a b : Half) : CommandReports flag s (execCrcBuf a b s) :=
  raiseOr_reports (by decide) (memRead_reports fun _ => ⟨rfl, rfl, rfl⟩)

theorem execSumBuf_reports (a b : Half) : CommandReports flag s (execSumBuf a b s) :=
  raiseOr_reports (by decide) (memRead_reports fun _ => ⟨rfl, rfl, rfl⟩)

theorem execEnvBuild_reports (a : Word) : CommandReports flag s (execEnvBuild a s) := by
  rw [execEnvBuild]
  split
  · exact completed_reports ⟨rfl, rfl, rfl⟩
  · exact raise_finish_reports (by decide)

/-- The register views share their shape: out of range they raise, else they read into the latch (R205 to R207). -/
theorem view_reports {c : Prop} [Decidable c] (a : Nat) {r : Run} (hr : r.Reports State.SameRecord flag s) :
    CommandReports flag s (if c then viewError a s else r).finish := by
  rw [finish_ite]
  exact raiseOr_reports (by decide) hr

end

/-! ### The envelope parser (R171 to R181) -/

/-- The states of the envelope FSM write neither the record nor the latch, but through an error or the flag. -/
theorem envelopeStates_report : ∀ f ∈ envelopeStates, ∀ s, (f s).Reports State.SameRecordAndLatch True s := by
  simp only [envelopeStates, List.forall_mem_cons]
  refine ⟨fun s => ?start, fun s => ?length, fun s => ?control, fun s => ?counter, fun s => ?serial, fun s => ?data,
    fun s => ?payload, fun s => ?checksum, fun s => ?fin, fun s => ?done, by simp⟩
  case start =>
    refine take_reports fun b => ?_
    dsimp only
    split
    · exact raise_reports rfl (by decide)
    · exact ⟨⟨rfl, rfl, rfl⟩, rfl⟩
  case length => exact take_reports fun _ => ⟨⟨rfl, rfl, rfl⟩, rfl⟩
  case control => exact take_reports fun _ => ⟨⟨rfl, rfl, rfl⟩, rfl⟩
  case counter => exact take_reports fun _ => ⟨⟨rfl, rfl, rfl⟩, rfl⟩
  case serial => exact take_reports fun _ => ⟨⟨rfl, rfl, rfl⟩, rfl⟩
  case data => exact take_reports fun _ => ⟨⟨rfl, rfl, rfl⟩, rfl⟩
  case payload =>
    rw [envelopePayload]
    split
    · exact raise_reports rfl (by decide)
    · exact take_reports fun _ => ⟨⟨rfl, rfl, rfl⟩, rfl⟩
  case checksum => exact take_reports fun _ => memRead_reports fun _ => ⟨⟨rfl, rfl, rfl⟩, rfl⟩
  case fin =>
    refine take_reports fun b => ?_
    dsimp only
    split
    · exact raise_reports rfl (by decide)
    · exact ⟨⟨rfl, rfl, rfl⟩, rfl⟩
  case done =>
    rw [envelopeDone_eq]
    split
    · exact flagMismatch_reports trivial
    · exact ⟨⟨rfl, rfl, rfl⟩, rfl⟩

theorem execEpRun_reports (s : State) : CommandReports True s (execEpRun s) := by
  have h : (runAll envelopeStates s.envelopeClear).Reports State.SameRecordAndLatch True s :=
    (runAll_reports envelopeStates_report s.envelopeClear).of_kept ⟨⟨rfl, rfl, rfl⟩, rfl⟩
  exact h.finish fun _ => State.SameRecordAndLatch.record

/-! ### The Modbus parsers (R191 to R202) -/

section
variable (s : State)

theorem modbusStart_reports (op src : Byte) (isResponse : Bool) :
    (modbusStart op src isResponse s).Reports State.SameRecordAndLatch True s := by
  rcases modbusStart_cases s op src isResponse with ⟨-, e⟩ | ⟨-, -, e⟩ | ⟨-, -, e⟩ <;> rw [e]
  · exact ⟨⟨rfl, rfl, rfl⟩, rfl⟩
  · exact raise_reports rfl (by decide)
  · exact raise_reports rfl (by decide)

theorem modbusCrc_reports (pos ent : Nat) : (modbusCrc pos ent s).Reports State.SameRecordAndLatch True s := by
  refine mtake_reports (by decide) fun b => memRead_reports fun covered => ?_
  dsimp only
  split
  · exact flagMismatch_reports trivial
  · exact ⟨⟨rfl, rfl, rfl⟩, rfl⟩

theorem responseTable_reports (left i : Nat) : (responseTable left i s).Reports State.SameRecordAndLatch True s := by
  induction left generalizing i s with
  | zero => exact ⟨⟨rfl, rfl, rfl⟩, rfl⟩
  | succ left ih => exact mtake_reports (by decide) fun _ => (ih _ _).of_kept ⟨⟨rfl, rfl, rfl⟩, rfl⟩

theorem responsePayload_reports : (responsePayload s).Reports State.SameRecordAndLatch True s :=
  andThen_reports (responseTable_reports s _ _) fun _ => (modbusCrc_reports _ _ _).of_kept ⟨⟨rfl, rfl, rfl⟩, rfl⟩

theorem responseLength_reports : (responseLength s).Reports State.SameRecordAndLatch True s := by
  refine mtake_reports (by decide) fun b => ?_
  dsimp only
  split
  · exact (responsePayload_reports _).of_kept ⟨⟨rfl, rfl, rfl⟩, rfl⟩
  · exact (modbusCrc_reports _ _ _).of_kept ⟨⟨rfl, rfl, rfl⟩, rfl⟩

theorem responseFunctionCode_reports : (responseFunctionCode s).Reports State.SameRecordAndLatch True s := by
  refine mtake_reports (by decide) fun b => ?_
  dsimp only
  split
  · exact (responseLength_reports _).of_kept ⟨⟨rfl, rfl, rfl⟩, rfl⟩
  · exact (modbusCrc_reports _ _ _).of_kept ⟨⟨rfl, rfl, rfl⟩, rfl⟩

theorem execMpRsp_reports (a : Byte) : CommandReports True s (execMpRsp a s) :=
  (andThen_reports (modbusStart_reports s _ _ _) responseFunctionCode_reports).finish
    fun _ => State.SameRecordAndLatch.record

theorem execMpCmd_reports (a : Byte) : CommandReports True s (execMpCmd a s) := by
  have hcode := andThen_reports (modbusStart_reports s 0x31 a false) (f := requestFunctionCode) fun _ =>
    mtake_reports (by decide) fun _ => ⟨⟨rfl, rfl, rfl⟩, rfl⟩
  have hstart := andThen_reports hcode (f := requestStart) fun _ =>
    mtake_reports (by decide) fun _ => ⟨⟨rfl, rfl, rfl⟩, rfl⟩
  have hcount := andThen_reports hstart (f := requestCount) fun _ =>
    mtake_reports (by decide) fun _ => ⟨⟨rfl, rfl, rfl⟩, rfl⟩
  exact (andThen_reports hcount fun t => modbusCrc_reports t 6 3).finish fun _ => State.SameRecordAndLatch.record

end

/-! ### The wire rows (R102, R263) -/

/-- A command run after another answers only where both do. -/
theorem afterNext_eq_next_iff {o : Host.Outcome State Fault Refusal} {f : State → Host.Outcome State Fault Refusal}
    {t : State} : afterNext o f = .next t ↔ ∃ u, o = .next u ∧ f u = .next t := by
  cases o <;> simp [afterNext]

theorem execIbLoad_rdata {data : List Byte} {s t : State} (h : execIbLoad data s = .next t) : t.rdata = s.rdata := by
  rw [execIbLoad] at h
  split at h
  · cases h; rfl
  · cases h; rfl

/-- Loading chunks leaves the latch that the commands before them left. -/
theorem foldl_execIbLoad_rdata {s t : State} (pieces : List (List Byte)) {o : Host.Outcome State Fault Refusal}
    (ho : ∀ u, o = .next u → u.rdata = s.rdata)
    (h : pieces.foldl (fun o c => afterNext o (execIbLoad c)) o = .next t) : t.rdata = s.rdata := by
  induction pieces generalizing o with
  | nil => exact ho t h
  | cons c pieces ih =>
    refine ih (fun v hv => ?_) h
    obtain ⟨u, hu, hv⟩ := afterNext_eq_next_iff.1 hv
    exact (execIbLoad_rdata hv).trans (ho u hu)

/-- Loading a message leaves the latch, whichever of its chunks fit (R102). -/
theorem setInput_rdata {bytes : List Byte} {s t : State} (h : setInput bytes s = .next t) : t.rdata = s.rdata :=
  foldl_execIbLoad_rdata _ (fun u hu => by cases hu; rfl) h

/-- The parser run after the loads reports, whatever they did. -/
theorem parse_after_setInput_reports {parser : State → Host.Outcome State Fault Refusal}
    (hp : ∀ u, CommandReports True u (parser u)) {bytes : List Byte} {s t : State}
    (h : afterNext (setInput bytes s) parser = .next t) : OutcomeRecorded True True s t := by
  obtain ⟨u, hu, ht⟩ := afterNext_eq_next_iff.1 h
  exact ((hp u t ht).of_rdata_eq (setInput_rdata hu)).imp (fun _ => trivial) id

theorem handOver_reports {kind : MessageKind} {bytes : List Byte} {s t : State} (h : handOver kind bytes s = .next t) :
    OutcomeRecorded True True s t := by
  cases kind with
  | frame => exact parse_after_setInput_reports execEpRun_reports h
  | request => exact parse_after_setInput_reports (execMpCmd_reports · 1) h
  | response => exact parse_after_setInput_reports (execMpRsp_reports · 1) h

/-- Each wire row is its bytes handed over (R97 to R99). -/
theorem exec_wireRow {i : Instr} (hw : isWireRow i = true) (s : State) :
    ∃ kind, exec i s = handOver kind (encode i) s := by
  cases i with
  | wireEnvelopeFrame => exact ⟨.frame, rfl⟩
  | wireModbusRequest => exact ⟨.request, rfl⟩
  | wireModbusResponseAck => exact ⟨.response, rfl⟩
  | wireModbusResponseEmptyRead => exact ⟨.response, rfl⟩
  | wireModbusResponseRead => exact ⟨.response, rfl⟩
  | _ => cases hw

/-! ### Every command -/

/-- The commands that flag a mismatch: the parsers (R224). -/
abbrev isParser (i : Instr) : Prop := i = .epRun ∨ (∃ a, i = .mpCmd a) ∨ ∃ a, i = .mpRsp a

/-- A command records its outcome, unless it clears the record or is several commands. -/
theorem exec_reports {i : Instr} (hc : i ≠ .clrerr) (hr : i ≠ .reset) (hw : isWireRow i = false) (s : State) :
    CommandReports (isParser i) s (exec i s) := by
  cases i with
  | clrerr => exact absurd rfl hc
  | reset => exact absurd rfl hr
  | nop => exact completed_reports ⟨rfl, rfl, rfl⟩
  | rd a => exact execRd_reports s a
  | wr r v => exact execWr_reports s r v
  | ibClr => exact completed_reports ⟨rfl, rfl, rfl⟩
  | ibLoad data => exact execIbLoad_reports s data
  | rdi a => exact readByteOut_finish_reports s _ _ _
  | rdo a => exact readByteOut_finish_reports s _ _ _
  | rdp a => exact readByteOut_finish_reports s _ _ _
  | rdd a => exact execRdd_reports s a
  | crcInit => exact completed_reports ⟨rfl, rfl, rfl⟩
  | crcUpd a => exact completed_reports ⟨rfl, rfl, rfl⟩
  | crcBuf a b => exact execCrcBuf_reports s a b
  | sumInit => exact completed_reports ⟨rfl, rfl, rfl⟩
  | sumUpd a => exact completed_reports ⟨rfl, rfl, rfl⟩
  | sumBuf a b => exact execSumBuf_reports s a b
  | epRun => exact fun t h => (execEpRun_reports s t h).imp id fun _ => .inl rfl
  | envBuild a => exact execEnvBuild_reports s a
  | mbReq a b c => exact completed_reports ⟨rfl, rfl, rfl⟩
  | mpCmd a => exact fun t h => (execMpCmd_reports s a t h).imp id fun _ => .inr (.inl ⟨a, rfl⟩)
  | mpRsp a => exact fun t h => (execMpRsp_reports s a t h).imp id fun _ => .inr (.inr ⟨a, rfl⟩)
  | fxU16 a => exact view_reports s _ (regRead_reports fun _ => ⟨rfl, rfl, rfl⟩)
  | fxS16 a => exact view_reports s _ (regRead_reports fun _ => ⟨rfl, rfl, rfl⟩)
  | fxD32 a => exact view_reports s _ (regRead_reports fun _ => regRead_reports fun _ => ⟨rfl, rfl, rfl⟩)
  | _ => cases hw

/-- Settles O54: `CLRERR` and `RESET` by what they answer, the wire rows by the parser they end in, every other command
by `exec_reports`. -/
theorem errorRecordFollowsTheOutcome : Obligations.ErrorRecordFollowsTheOutcome := by
  intro i s t h
  by_cases hc : i = .clrerr
  · subst hc
    cases h
    exact .inl ⟨rfl, .inl rfl⟩
  by_cases hr : i = .reset
  · subst hr
    cases h
    exact .inl ⟨rfl, .inr (.inl rfl)⟩
  cases hw : isWireRow i with
  | true =>
    obtain ⟨kind, he⟩ := exec_wireRow hw s
    exact (handOver_reports (he ▸ h)).imp (fun _ => .inr (.inr (.inl rfl))) fun _ => .inr (.inr (.inr rfl))
  | false =>
    refine (exec_reports hc hr hw s t h).imp (fun k => .inr (.inr (.inr ⟨k.err, k.errPos, k.errEnt⟩))) ?_
    rintro (hp | hp | hp)
    · exact .inl hp
    · exact .inr (.inl hp)
    · exact .inr (.inr (.inl hp))

end Sys2Proof.Machine

/-! ## Unimplemented register numbers (R22) -/

namespace Sys2Proof.Machine

/-- The numbers that R21 lists. -/
theorem scalarRegisters_numbers (s : State) :
    s.scalarRegisters.map Prod.fst =
      [0x00, 0x01, 0x02, 0x03, 0x04, 0x05, 0x06, 0x07, 0x08, 0x09, 0x0A, 0x0B,
        0x10, 0x11, 0x12, 0x13, 0x14, 0x15, 0x16, 0x17, 0x18, 0x19, 0x1A, 0x1B,
        0x20, 0x21, 0x22, 0x23, 0x24, 0x25, 0x26, 0x27, 0x28, 0x29, 0x2A] := rfl

/-- A number that R21 does not list reads as no register (R13, R22). -/
theorem scalar_eq_none {a : Byte}
    (h : (0x0C ≤ a.toNat ∧ a.toNat ≤ 0x0F) ∨ (0x1C ≤ a.toNat ∧ a.toNat ≤ 0x1F) ∨ 0x2B ≤ a.toNat) (s : State) :
    s.scalar a = none := by
  have hn : a.toNat ∉ s.scalarRegisters.map Prod.fst := by
    rw [scalarRegisters_numbers]
    simp only [List.mem_cons, List.not_mem_nil, or_false]
    omega
  refine List.lookup_eq_none_iff.2 fun c hc => bne_iff_ne.2 fun e => hn ?_
  exact List.mem_map.2 ⟨c, hc, e.symm⟩

/-- Settles O5: such a number is no register to `RD`, and neither `CNT` nor `CTRL` to `WR`. -/
theorem unimplementedNumbersAreIllegal : Obligations.UnimplementedNumbersAreIllegal := by
  intro s a v h
  constructor
  · show execRd a s = _
    rw [execRd, scalar_eq_none h]
    rfl
  · have hr : a ≠ 0x06 ∧ a ≠ 0x07 := by
      constructor
      · rintro rfl; revert h; decide
      · rintro rfl; revert h; decide
    exact if_pos hr

/-! ## What a part of a command leaves (R15, R226) -/

/-- The part goes on in a state where `goes` holds or has ended in one where `ends` does; it stops the model only if
`faults`. -/
def Run.Ensures (goes ends : State → Prop) (faults : Prop) : Run → Prop
  | .go t => goes t
  | .ended t => ends t
  | .fault _ => faults

/-- The state that an error, or the deferred flag, leaves of `s`: the record and the port are written (R226). -/
def State.reported (s : State) (e : ErrorName) (pos ent : Nat) (o : CommandOutcome) : State :=
  (s.recordError e pos ent).withOutcome o

section
variable {goes goes' ends : State → Prop} {faults : Prop} {s : State}

theorem andThen_ensures {r : Run} {f : State → Run} (hr : r.Ensures goes ends faults)
    (hf : ∀ t, goes t → (f t).Ensures goes' ends faults) : (r.andThen f).Ensures goes' ends faults := by
  cases r with
  | go t => exact hf t hr
  | ended t => exact hr
  | fault e => exact hr

theorem raise_ensures {e : ErrorName} {pos ent : Nat} (h : ends (s.reported e pos ent (.error e))) :
    (raise e pos ent s).Ensures goes ends faults := h

theorem flagMismatch_ensures {pos ent : Nat} (h : ends (s.reported .checksumMismatch pos ent .okFlagged)) :
    (flagMismatch pos ent s).Ensures goes ends faults := h

theorem memRead_ensures {b : Buffer} {off n : Nat} {next : List Byte → Run}
    (hf : s.bufferLength b < off + n → faults)
    (h : off + n ≤ s.bufferLength b → (next (Mem.readRange (s.bufferOf b) off n)).Ensures goes ends faults) :
    (memRead s b off n next).Ensures goes ends faults := by
  rcases memRead_cases s b off n next with ⟨hl, e⟩ | ⟨hl, e⟩ <;> rw [e]
  · exact h hl
  · exact hf hl

theorem regRead_ensures {i : Nat} {next : Half → Run} (hf : s.cfg.catalogRegs ≤ i → faults)
    (h : i < s.cfg.catalogRegs → (next (Mem.read s.mReg i)).Ensures goes ends faults) :
    (regRead s i next).Ensures goes ends faults := by
  rw [regRead]
  split
  case isTrue hl => exact h hl
  case isFalse hl => exact hf (Nat.not_lt.1 hl)

/-- The envelope parser's read never stops the model (R182). -/
theorem take_ensures {pos n ent : Nat} {next : List Byte → Run}
    (he : s.ilen.toNat < pos + n → ends (s.reported .truncatedInput pos ent (.error .truncatedInput)))
    (h : pos + n ≤ s.ilen.toNat → (next (Mem.readRange s.ibuf pos n)).Ensures goes ends faults) :
    (take s pos n ent next).Ensures goes ends faults := by
  rcases take_cases s pos n ent next with ⟨hl, e⟩ | ⟨hl, e⟩ <;> rw [e]
  · exact h hl
  · exact raise_ensures (he hl)

theorem mtake_ensures {pos n ent : Nat} {e : ErrorName} {next : List Byte → Run}
    (hf : s.ilen.toNat < s.mBase.toNat + s.mSlen.toNat → faults)
    (he : s.mSlen.toNat < pos + n → ends (s.reported e pos ent (.error e)))
    (h : pos + n ≤ s.mSlen.toNat → s.mBase.toNat + pos + n ≤ s.ilen.toNat →
      (next (Mem.readRange s.ibuf (s.mBase.toNat + pos) n)).Ensures goes ends faults) :
    (mtake s pos n ent e next).Ensures goes ends faults := by
  rcases mtake_cases s pos n ent e next with ⟨hl, hb, q⟩ | ⟨hl, q⟩ | ⟨hl, hb, q⟩ <;> rw [q]
  · exact h hl hb
  · exact raise_ensures (he hl)
  · exact hf (by omega)

theorem readByteOut_ensures {b : Buffer} {a len : Nat} (hf : s.bufferLength b < len → faults)
    (he : ends (s.reported .truncatedInput a 0 (.error .truncatedInput)))
    (h : ∀ v, goes { s with rdata := v }) : (readByteOut s b a len).Ensures goes ends faults := by
  rw [readByteOut]
  split
  · exact raise_ensures he
  · exact memRead_ensures (fun hl => hf (by omega)) fun _ => h _

/-- Parts in sequence, each from what the one before it leaves. -/
theorem runAll_cons_ensures {f : State → Run} {rest : List (State → Run)} (hf : (f s).Ensures goes ends faults)
    (hr : ∀ t, goes t → (runAll rest t).Ensures goes' ends faults) :
    (runAll (f :: rest) s).Ensures goes' ends faults :=
  andThen_ensures hf hr

end

/-- The command answers a next state, and `P` holds there. -/
def Answers (P : State → Prop) (o : Host.Outcome State Fault Refusal) : Prop := ∃ t, o = .next t ∧ P t

section
variable {goes P : State → Prop} {s : State}

theorem Answers.of_next {o : Host.Outcome State Fault Refusal} (h : Answers P o) {t : State}
    (ht : o = .next t) : P t := by
  obtain ⟨u, hu, hP⟩ := h
  cases hu.symm.trans ht
  exact hP

/-- The end of a command whose parts never stop the model (R161). -/
theorem Run.Ensures.answers {r : Run} (h : r.Ensures goes P False) (hg : ∀ t, goes t → P (t.withOutcome .ok)) :
    Answers P r.finish := by
  cases r with
  | go t => exact ⟨_, rfl, hg t h⟩
  | ended t => exact ⟨t, rfl, h⟩
  | fault e => exact h.elim

/-- The end of a command where it answers. -/
theorem Run.Ensures.of_finish {r : Run} {faults : Prop} {t : State} (h : r.Ensures goes P faults)
    (hg : ∀ t, goes t → P (t.withOutcome .ok)) (ht : r.finish = .next t) : P t := by
  rcases finish_next ht with ⟨u, rfl, rfl⟩ | rfl
  · exact hg u h
  · exact h

end

/-! ## The parts of the state and what a command may do to each (R38) -/

/-- What commands write as a whole: a flag, a register, an array, or registers that R38 always lists together. The
error record and the outcome port, which every command may write, are left out. -/
inductive Part where
  | flag (f : Flag)
  | cnt
  | ctrl
  | rdata
  | ilen
  | ibuf
  | pbuf
  | obuf
  | olen
  | eData
  | mReg
  | crc
  | sum
  /-- `E_STATE` and the `E_*` registers. -/
  | envelope
  /-- `M_STATE` and the `M_*` registers that both Modbus parsers write. -/
  | modbus
  /-- `M_LEN` and `M_NREG`, which responses have. -/
  | response
  /-- `M_START` and `M_COUNT`, which requests have. -/
  | request

/-- What a part holds. -/
abbrev Part.Content : Part → Type
  | .flag _ => Bool
  | .cnt | .ctrl | .ilen | .olen | .crc => Half
  | .rdata => Word
  | .ibuf | .pbuf | .obuf | .eData => Mem 8
  | .mReg => Mem 16
  | .sum => Byte
  | .envelope => Byte × Byte × Half × Half × Half × Word × Half × Half × Byte × Byte × Half × Half × Byte
  | .modbus => Byte × Half × Half × Half × Half × Byte × Half × Half
  | .response => Byte × Byte
  | .request => Half × Half

/-- What the part holds in the state `s`. -/
def State.content (s : State) : (p : Part) → p.Content
  | .flag f => s.flag f
  | .cnt => s.cnt
  | .ctrl => s.ctrl
  | .rdata => s.rdata
  | .ilen => s.ilen
  | .ibuf => s.ibuf
  | .pbuf => s.pbuf
  | .obuf => s.obuf
  | .olen => s.olen
  | .eData => s.eData
  | .mReg => s.mReg
  | .crc => s.crc
  | .sum => s.sum
  | .envelope =>
    (s.eState, s.eStart, s.eLen, s.eCtrl, s.eCnt, s.eSer, s.ePoff, s.ePlen, s.eChk, s.eEnd, s.eToff, s.eTlen, s.eNent)
  | .modbus => (s.mState, s.mFc, s.mCrc, s.mToff, s.mTlen, s.mNent, s.mBase, s.mSlen)
  | .response => (s.mLen, s.mNreg)
  | .request => (s.mStart, s.mCount)

/-- What a command may do to a part: nothing, give it the one value `v`, or anything. -/
inductive Mode (α : Type) where
  | kept
  | only (v : α)
  | free

/-- The mode allows a part that held `a` to hold `b` afterwards. -/
def Mode.allows {α : Type} : Mode α → α → α → Prop
  | .kept, a, b => b = a
  | .only v, a, b => b = a ∨ b = v
  | .free, _, _ => True

/-- What is allowed by one of the two. -/
def Mode.or {α : Type} : Mode α → Mode α → Mode α
  | .kept, m => m
  | m, .kept => m
  | _, _ => .free

section
variable {α : Type} {m m' : Mode α} {a b c : α}

theorem Mode.allows_refl (m : Mode α) (a : α) : m.allows a a := by
  cases m with
  | kept => rfl
  | only v => exact .inl rfl
  | free => trivial

theorem Mode.allows.trans (h : m.allows a b) (h' : m.allows b c) : m.allows a c := by
  cases m with
  | kept => exact Eq.trans h' h
  | only v => exact h'.elim (fun e => e ▸ h) .inr
  | free => trivial

theorem Mode.allows.or_left (h : m.allows a b) (m' : Mode α) : (m.or m').allows a b := by
  cases m with
  | kept =>
    obtain rfl : b = a := h
    exact Mode.allows_refl _ _
  | only v => cases m' with
    | kept => exact h
    | only v' => trivial
    | free => trivial
  | free => cases m' <;> trivial

theorem Mode.allows.or_right (m : Mode α) (h : m'.allows a b) : (m.or m').allows a b := by
  cases m' with
  | kept =>
    obtain rfl : b = a := h
    exact Mode.allows_refl _ _
  | only v => cases m with
    | kept => exact h
    | only v' => trivial
    | free => trivial
  | free => cases m <;> trivial

end

/-- What a command may do to every part. -/
abbrev WriteSet := (p : Part) → Mode p.Content

/-- From `s` to `t`, each part changes as `W` says; the parameters and the host's queue stay. -/
structure WritesWithin (W : WriteSet) (s t : State) : Prop where
  cfg : t.cfg = s.cfg
  pending : t.pending = s.pending
  parts : ∀ p, (W p).allows (s.content p) (t.content p)

section
variable {W : WriteSet} {s t u : State}

theorem WritesWithin.refl (W : WriteSet) (s : State) : WritesWithin W s s :=
  ⟨rfl, rfl, fun _ => Mode.allows_refl _ _⟩

theorem WritesWithin.trans (h : WritesWithin W s t) (h' : WritesWithin W t u) : WritesWithin W s u :=
  ⟨h'.cfg.trans h.cfg, h'.pending.trans h.pending, fun p => (h.parts p).trans (h'.parts p)⟩

theorem WritesWithin.imp {W' : WriteSet} (h : WritesWithin W s t)
    (hW : ∀ p {a b}, (W p).allows a b → (W' p).allows a b) : WritesWithin W' s t :=
  ⟨h.cfg, h.pending, fun p => hW p (h.parts p)⟩

/-- Writing a flag is within what may be done to that flag. -/
theorem writesWithin_setFlag {f : Flag} {b : Bool} (h : WritesWithin W s t) (hb : (W (.flag f)).allows (t.flag f) b) :
    WritesWithin W s (t.setFlag f b) := by
  refine h.trans ⟨rfl, rfl, fun p => ?_⟩
  cases p with
  | flag g =>
    show (W (.flag g)).allows (t.flag g) ((t.setFlag f b).flag g)
    rw [State.flag_setFlag]
    split
    case isTrue e => exact e ▸ hb
    case isFalse => exact Mode.allows_refl _ _
  | _ => exact Mode.allows_refl _ _

/-- The outcome port is no part. -/
theorem WritesWithin.withOutcome (h : WritesWithin W s t) (o : CommandOutcome) : WritesWithin W s (t.withOutcome o) :=
  h.trans ⟨rfl, rfl, fun p => by cases p <;> exact Mode.allows_refl _ _⟩

/-- The error record and the outcome port are no parts. -/
theorem WritesWithin.reported (h : WritesWithin W s t) (e : ErrorName) (pos ent : Nat) (o : CommandOutcome) :
    WritesWithin W s (t.reported e pos ent o) :=
  h.trans ⟨rfl, rfl, fun p => by cases p <;> exact Mode.allows_refl _ _⟩

end

/-- A part of a command run from `s` writes within `W`, however it ends. -/
abbrev Run.Writes (W : WriteSet) (faults : Prop) (s : State) (r : Run) : Prop :=
  r.Ensures (WritesWithin W s) (WritesWithin W s) faults

section
variable {W : WriteSet} {faults : Prop} {s : State}

theorem raise_writes (e : ErrorName) (pos ent : Nat) : (raise e pos ent s).Writes W faults s :=
  raise_ensures ((WritesWithin.refl W s).reported e pos ent _)

theorem take_writes {pos n ent : Nat} {next : List Byte → Run}
    (h : pos + n ≤ s.ilen.toNat → (next (Mem.readRange s.ibuf pos n)).Writes W faults s) :
    (take s pos n ent next).Writes W faults s :=
  take_ensures (fun _ => (WritesWithin.refl W s).reported _ _ _ _) h

theorem memRead_writes {b : Buffer} {off n : Nat} {next : List Byte → Run}
    (h : ∀ bytes, (next bytes).Writes W True s) : (memRead s b off n next).Writes W True s :=
  memRead_ensures (fun _ => trivial) fun _ => h _

theorem regRead_writes {i : Nat} {next : Half → Run} (h : ∀ v, (next v).Writes W True s) :
    (regRead s i next).Writes W True s :=
  regRead_ensures (fun _ => trivial) fun _ => h _

theorem mtake_writes {pos n ent : Nat} {e : ErrorName} {next : List Byte → Run}
    (h : ∀ bytes, (next bytes).Writes W True s) : (mtake s pos n ent e next).Writes W True s :=
  mtake_ensures (fun _ => trivial) (fun _ => (WritesWithin.refl W s).reported _ _ _ _) fun _ _ => h _

/-- What a part writes from `t`, it writes from a state before `t` that was written within the same set. -/
theorem Run.Writes.after {r : Run} {t : State} (hr : r.Writes W faults t) (h : WritesWithin W s t) :
    r.Writes W faults s := by
  cases r with
  | go u => exact h.trans hr
  | ended u => exact h.trans hr
  | fault e => exact hr

theorem andThen_writes {r : Run} {f : State → Run} (hr : r.Writes W faults s) (hf : ∀ t, (f t).Writes W faults t) :
    (r.andThen f).Writes W faults s :=
  andThen_ensures hr fun t ht => (hf t).after ht

theorem runAll_writes {parts : List (State → Run)} (h : ∀ f ∈ parts, ∀ t, (f t).Writes W faults t) (s : State) :
    (runAll parts s).Writes W faults s := by
  induction parts generalizing s with
  | nil => exact WritesWithin.refl W s
  | cons f rest ih =>
    obtain ⟨hf, hrest⟩ := List.forall_mem_cons.1 h
    exact andThen_writes (hf s) (ih hrest)

end

/-- A whole command run from `s` writes within `W` where it answers. -/
abbrev CommandWrites (W : WriteSet) (s : State) (o : Host.Outcome State Fault Refusal) : Prop :=
  ∀ t, o = .next t → WritesWithin W s t

section
variable {W : WriteSet} {s : State}

theorem Run.Writes.finish {r : Run} {faults : Prop} (h : r.Writes W faults s) : CommandWrites W s r.finish :=
  fun _ => h.of_finish fun _ ht => ht.withOutcome .ok

theorem completed_writes {u : State} (h : WritesWithin W s u) : CommandWrites W s (completed u) :=
  Run.Writes.finish (r := .go u) (faults := False) h

theorem raise_finish_writes (e : ErrorName) (pos ent : Nat) : CommandWrites W s (raise e pos ent s).finish :=
  (raise_writes (faults := False) e pos ent).finish

end

/-! ## The envelope parser writes its own registers (R38, R171) -/

/-- `EP.RUN` (R38). -/
def envelopeWrites : WriteSet
  | .flag .eValid | .flag .eHaspl | .flag .chkBad => .free
  | .envelope | .eData | .sum => .free
  | _ => .kept

/-- A state in which at most `SUM`, `E_DATA`, `E_STATE` and the `E_*` registers differ. -/
theorem writesWithin_envelope {s t : State}
    (h : t = { s with
      sum := t.sum, eData := t.eData, eState := t.eState, eStart := t.eStart, eLen := t.eLen, eCtrl := t.eCtrl
      eCnt := t.eCnt, eSer := t.eSer, ePoff := t.ePoff, ePlen := t.ePlen, eChk := t.eChk, eEnd := t.eEnd
      eToff := t.eToff, eTlen := t.eTlen, eNent := t.eNent }) : WritesWithin envelopeWrites s t := by
  rw [h]
  refine ⟨rfl, rfl, fun p => ?_⟩
  cases p with
  | sum | eData | envelope => trivial
  | _ => exact Mode.allows_refl _ _

theorem envelopeAt_writes {s t : State} {n : Nat} {st : EnvelopeState} (h : WritesWithin envelopeWrites s t) :
    WritesWithin envelopeWrites s (t.envelopeAt n st) :=
  h.trans (writesWithin_envelope rfl)

/-- What `EP.RUN` clears first (R171). -/
theorem envelopeClear_writes (s : State) : WritesWithin envelopeWrites s s.envelopeClear :=
  writesWithin_setFlag (writesWithin_setFlag (writesWithin_setFlag (writesWithin_envelope rfl) trivial) trivial) trivial

/-- The states of the envelope FSM write within the set, and none stops the model, from any state: what lies before the
checksum byte is there once that byte is. -/
theorem envelopeStates_write : ∀ f ∈ envelopeStates, ∀ s, (f s).Writes envelopeWrites False s := by
  simp only [envelopeStates, List.forall_mem_cons]
  refine ⟨fun s => ?start, fun s => ?length, fun s => ?control, fun s => ?counter, fun s => ?serial, fun s => ?data,
    fun s => ?payload, fun s => ?checksum, fun s => ?fin, fun s => ?done, by simp⟩
  case start =>
    refine take_writes fun _ => ?_
    dsimp only
    split
    · exact raise_ensures ((writesWithin_envelope rfl).reported _ _ _ _)
    · exact writesWithin_envelope rfl
  case length => exact take_writes fun _ => writesWithin_envelope rfl
  case control => exact take_writes fun _ => writesWithin_envelope rfl
  case counter => exact take_writes fun _ => writesWithin_envelope rfl
  case serial => exact take_writes fun _ => writesWithin_envelope rfl
  case data => exact take_writes fun _ => writesWithin_envelope rfl
  case payload =>
    rw [envelopePayload]
    split
    · exact raise_writes _ _ _
    · exact take_writes fun _ => envelopeAt_writes (writesWithin_setFlag (writesWithin_envelope rfl) trivial)
  case checksum =>
    have hp : 11 ≤ s.cfg.payloadOffset := Nat.le_add_right ..
    refine take_writes fun hl => memRead_ensures (fun hs => ?_) fun _ =>
      envelopeAt_writes (writesWithin_setFlag (writesWithin_envelope rfl) trivial)
    change s.ilen.toNat < _ at hs
    omega
  case fin =>
    refine take_writes fun _ => ?_
    dsimp only
    split
    · exact raise_ensures ((writesWithin_envelope rfl).reported _ _ _ _)
    · exact writesWithin_envelope rfl
  case done =>
    have h : WritesWithin envelopeWrites s s.envelopeFinished :=
      writesWithin_setFlag (writesWithin_envelope rfl) trivial
    rw [envelopeDone_eq]
    split
    · exact flagMismatch_ensures (h.reported _ _ _ _)
    · exact h

theorem runAll_envelopeStates_writes (s : State) :
    (runAll envelopeStates s.envelopeClear).Writes envelopeWrites False s :=
  (runAll_writes envelopeStates_write s.envelopeClear).after (envelopeClear_writes s)

/-- `EP.RUN` always ends (R171). -/
theorem execEpRun_answers (s : State) : Answers (WritesWithin envelopeWrites s) (execEpRun s) :=
  (runAll_envelopeStates_writes s).answers fun _ h => h.withOutcome .ok

/-- Every bit of `STATUS` is a flag (R25). -/
theorem exists_flag_bit {i : Nat} (h : i < 8) : ∃ f : Flag, f.bit = i := by
  interval_cases i
  · exact ⟨.eValid, rfl⟩
  · exact ⟨.eHaspl, rfl⟩
  · exact ⟨.chkBad, rfl⟩
  · exact ⟨.mValid, rfl⟩
  · exact ⟨.crcBad, rfl⟩
  · exact ⟨.pbValid, rfl⟩
  · exact ⟨.obValid, rfl⟩
  · exact ⟨.mRsp, rfl⟩

/-- The bits 3 to 7 of `STATUS` are flags (R25). -/
theorem status_high_of_flags {s t : State} (h : ∀ f, 3 ≤ f.bit → t.flag f = s.flag f) :
    t.status &&& 0xF8 = s.status &&& 0xF8 := by
  refine BitVec.eq_of_getLsbD_eq fun i hi => ?_
  rw [BitVec.getLsbD_and, BitVec.getLsbD_and]
  rcases Nat.lt_or_ge i 3 with hlow | hhigh
  · have hmask : (0xF8 : Byte).getLsbD i = false := by interval_cases i <;> rfl
    rw [hmask, Bool.and_false, Bool.and_false]
  · obtain ⟨f, rfl⟩ := exists_flag_bit hi
    exact congrArg (· && _) (h f hhigh)

/-- Settles O20: `envelopeWrites` is the write set that the statement spells out. -/
theorem epRunEndsAndKeepsTheRest : Obligations.EpRunEndsAndKeepsTheRest := by
  intro s
  obtain ⟨t, ht, h⟩ := execEpRun_answers s
  refine ⟨t, ht, ?_, status_high_of_flags fun f hf => ?_⟩
  · have hcnt : t.cnt = s.cnt := h.parts .cnt
    have hctrl : t.ctrl = s.ctrl := h.parts .ctrl
    have hrdata : t.rdata = s.rdata := h.parts .rdata
    have hilen : t.ilen = s.ilen := h.parts .ilen
    have hibuf : t.ibuf = s.ibuf := h.parts .ibuf
    have hpbuf : t.pbuf = s.pbuf := h.parts .pbuf
    have hobuf : t.obuf = s.obuf := h.parts .obuf
    have holen : t.olen = s.olen := h.parts .olen
    have hmReg : t.mReg = s.mReg := h.parts .mReg
    have hcrc : t.crc = s.crc := h.parts .crc
    have hmodbus : t.content .modbus = s.content .modbus := h.parts .modbus
    have hresponse : t.content .response = s.content .response := h.parts .response
    have hrequest : t.content .request = s.content .request := h.parts .request
    simp only [State.content, Prod.mk.injEq] at hmodbus hresponse hrequest
    obtain ⟨hmState, hmFc, hmCrc, hmToff, hmTlen, hmNent, hmBase, hmSlen⟩ := hmodbus
    rw [← h.cfg, ← h.pending, ← hcnt, ← hctrl, ← hrdata, ← hilen, ← hibuf, ← hpbuf, ← hobuf, ← holen, ← hmReg, ← hcrc,
      ← hmState, ← hmFc, ← hmCrc, ← hmToff, ← hmTlen, ← hmNent, ← hmBase, ← hmSlen, ← hresponse.1, ← hresponse.2,
      ← hrequest.1, ← hrequest.2]
  · have hw := h.parts (.flag f)
    cases f with
    | eValid | eHaspl | chkBad => exact absurd hf (by decide)
    | _ => exact hw

end Sys2Proof.Machine

namespace Sys2Proof.Machine

/-! ## The Modbus parsers write their own registers (R38, R191; log entry 11) -/

/-- `MP.RSP` and `MP.CMD` (R38): either clears what only the other one's messages have. -/
def modbusWrites (isResponse : Bool) : WriteSet
  | .flag .mValid | .flag .crcBad => .free
  | .flag .mRsp => .only isResponse
  | .modbus | .crc => .free
  | .mReg => if isResponse then .free else .only []
  | .response => if isResponse then .free else .only (0, 0)
  | .request => if isResponse then .only (0, 0) else .free
  | _ => .kept

/-- A state in which at most `CRC`, `M_STATE` and the `M_*` registers of both parsers differ. -/
theorem writesWithin_modbus {isResponse : Bool} {s t : State}
    (h : t = { s with
      crc := t.crc, mState := t.mState, mFc := t.mFc, mCrc := t.mCrc, mToff := t.mToff, mTlen := t.mTlen
      mNent := t.mNent, mBase := t.mBase, mSlen := t.mSlen }) : WritesWithin (modbusWrites isResponse) s t := by
  rw [h]
  refine ⟨rfl, rfl, fun p => ?_⟩
  cases p with
  | crc | modbus => trivial
  | _ => exact Mode.allows_refl _ _

/-- A state in which moreover the fields of a request may differ. -/
theorem writesWithin_request {s t : State}
    (h : t = { s with
      mState := t.mState, mFc := t.mFc, mNent := t.mNent, mStart := t.mStart, mCount := t.mCount }) :
    WritesWithin (modbusWrites false) s t := by
  rw [h]
  refine ⟨rfl, rfl, fun p => ?_⟩
  cases p with
  | modbus | request => trivial
  | _ => exact Mode.allows_refl _ _

/-- A state in which moreover the fields of a response may differ. -/
theorem writesWithin_response {s t : State}
    (h : t = { s with
      mState := t.mState, mFc := t.mFc, mNent := t.mNent, mLen := t.mLen, mNreg := t.mNreg, mReg := t.mReg }) :
    WritesWithin (modbusWrites true) s t := by
  rw [h]
  refine ⟨rfl, rfl, fun p => ?_⟩
  cases p with
  | modbus | response | mReg => trivial
  | _ => exact Mode.allows_refl _ _

/-- What either parser clears, and the span it is given (R191). -/
theorem openSpan_writes (isResponse : Bool) (base slen : Half) (s : State) :
    WritesWithin (modbusWrites isResponse) s (s.openSpan isResponse base slen) := by
  refine writesWithin_setFlag (writesWithin_setFlag (writesWithin_setFlag ⟨rfl, rfl, fun p => ?_⟩ trivial) trivial)
    (.inr rfl)
  cases p with
  | crc | modbus => trivial
  | mReg | response =>
    cases isResponse
    · exact .inr rfl
    · trivial
  | request =>
    cases isResponse
    · trivial
    · exact .inr rfl
  | _ => exact Mode.allows_refl _ _

section
variable (s : State)

theorem modbusStart_writes (op src : Byte) (isResponse : Bool) :
    (modbusStart op src isResponse s).Writes (modbusWrites isResponse) True s := by
  rcases modbusStart_cases s op src isResponse with ⟨-, e⟩ | ⟨-, -, e⟩ | ⟨-, -, e⟩ <;> rw [e]
  · exact (openSpan_writes isResponse _ _ s).trans (writesWithin_modbus rfl)
  · exact raise_writes _ _ _
  · exact raise_writes _ _ _

theorem modbusFinished_writes (isResponse : Bool) (pos ent : Nat) :
    WritesWithin (modbusWrites isResponse) s (s.modbusFinished pos ent) := by
  have hfield : WritesWithin (modbusWrites isResponse) s
      { s with mCrc := s.modbusField pos, crc := s.modbusCheck pos } := writesWithin_modbus rfl
  have hchecked := writesWithin_setFlag (f := .crcBad) (b := s.modbusCheck pos != s.modbusField pos) hfield trivial
  exact writesWithin_setFlag (hchecked.trans (writesWithin_modbus rfl)) trivial

theorem modbusCrc_writes (isResponse : Bool) (pos ent : Nat) :
    (modbusCrc pos ent s).Writes (modbusWrites isResponse) True s := by
  rcases Nat.lt_or_ge s.mSlen.toNat (pos + 2) with hshort | hwhole
  · rw [modbusCrc_short hshort]
    exact raise_writes _ _ _
  rcases Nat.lt_or_ge s.ilen.toNat (s.mBase.toNat + pos + 2) with hout | hin
  · rw [modbusCrc, mtake, if_neg (Nat.not_lt.2 hwhole), memRead_of_gt (b := .ibuf) hout]
    trivial
  rw [modbusCrc_whole hwhole hin]
  have h := modbusFinished_writes s isResponse pos ent
  split
  · exact h
  · exact flagMismatch_ensures (h.reported _ _ _ _)

theorem responseTable_writes (left i : Nat) : (responseTable left i s).Writes (modbusWrites true) True s := by
  induction left generalizing i s with
  | zero => exact WritesWithin.refl _ s
  | succ left ih => exact mtake_writes fun _ => (ih _ _).after (writesWithin_response rfl)

theorem responsePayload_writes : (responsePayload s).Writes (modbusWrites true) True s :=
  andThen_writes (responseTable_writes s _ _) fun _ => (modbusCrc_writes _ _ _ _).after (writesWithin_response rfl)

theorem responseLength_writes : (responseLength s).Writes (modbusWrites true) True s := by
  refine mtake_writes fun b => ?_
  dsimp only
  split
  · exact (responsePayload_writes _).after (writesWithin_response rfl)
  · exact (modbusCrc_writes _ _ _ _).after (writesWithin_response rfl)

theorem responseFunctionCode_writes : (responseFunctionCode s).Writes (modbusWrites true) True s := by
  refine mtake_writes fun b => ?_
  dsimp only
  split
  · exact (responseLength_writes _).after (writesWithin_response rfl)
  · exact (modbusCrc_writes _ _ _ _).after (writesWithin_response rfl)

theorem execMpRsp_writes (a : Byte) : CommandWrites (modbusWrites true) s (execMpRsp a s) :=
  (andThen_writes (modbusStart_writes s _ _ _) responseFunctionCode_writes).finish

theorem execMpCmd_writes (a : Byte) : CommandWrites (modbusWrites false) s (execMpCmd a s) := by
  have hcode := andThen_writes (modbusStart_writes s 0x31 a false) (f := requestFunctionCode) fun _ =>
    mtake_writes fun _ => writesWithin_request rfl
  have hstart := andThen_writes hcode (f := requestStart) fun _ => mtake_writes fun _ => writesWithin_request rfl
  have hcount := andThen_writes hstart (f := requestCount) fun _ => mtake_writes fun _ => writesWithin_request rfl
  exact (andThen_writes hcount fun t => modbusCrc_writes t false 6 3).finish

end

/-! ## The write set of every command (R38) -/

/-- `NOP` and `CLRERR` write nothing but the record and the port. -/
def noWrites : WriteSet := fun _ => .kept

/-- `WR` (R154). -/
def wrWrites (r : Byte) : WriteSet
  | .cnt => if r = 0x06 then .free else .kept
  | .ctrl => if r = 0x07 then .free else .kept
  | _ => .kept

/-- The reading commands (R23). -/
def latchWrites : WriteSet
  | .rdata => .free
  | _ => .kept

/-- `IB.CLR` (R155). -/
def clearWrites : WriteSet
  | .flag .eValid | .flag .eHaspl | .flag .mValid => .only false
  | .ilen => .free
  | _ => .kept

/-- `IB.LOAD` (R156). -/
def loadWrites : WriteSet
  | .ibuf => .free
  | p => clearWrites p

/-- The CRC unit. -/
def crcWrites : WriteSet
  | .crc => .free
  | _ => .kept

/-- The checksum unit. -/
def sumWrites : WriteSet
  | .sum => .free
  | _ => .kept

/-- `ENV.BUILD` (R184). -/
def buildWrites : WriteSet
  | .flag .obValid => .only true
  | .sum | .obuf | .olen | .cnt => .free
  | _ => .kept

/-- `MB.REQ` (R190). -/
def mbReqWrites : WriteSet
  | .flag .pbValid => .only true
  | .flag .obValid => .only false
  | .pbuf | .crc | .olen => .free
  | _ => .kept

/-- A message is loaded, then parsed (log entry 7). -/
def messageWrites (parser : WriteSet) : WriteSet := fun p => (loadWrites p).or (parser p)

/-- What each instruction may do to each part. -/
def writesOf : Instr → WriteSet
  | .nop | .clrerr => noWrites
  | .reset => fun _ => .free
  | .wr r _ => wrWrites r
  | .ibClr => clearWrites
  | .ibLoad _ => loadWrites
  | .rd _ | .rdi _ | .rdo _ | .rdp _ | .rdd _ | .fxU16 _ | .fxS16 _ | .fxD32 _ => latchWrites
  | .crcInit | .crcUpd _ | .crcBuf _ _ => crcWrites
  | .sumInit | .sumUpd _ | .sumBuf _ _ => sumWrites
  | .epRun => envelopeWrites
  | .envBuild _ => buildWrites
  | .mbReq _ _ _ => mbReqWrites
  | .mpCmd _ => modbusWrites false
  | .mpRsp _ => modbusWrites true
  | .wireEnvelopeFrame .. => messageWrites envelopeWrites
  | .wireModbusRequest .. => messageWrites (modbusWrites false)
  | .wireModbusResponseAck .. | .wireModbusResponseEmptyRead .. | .wireModbusResponseRead .. =>
    messageWrites (modbusWrites true)

section
variable (s : State)

theorem rdata_writes (v : Word) : WritesWithin latchWrites s { s with rdata := v } :=
  ⟨rfl, rfl, fun p => by cases p with
    | rdata => trivial
    | _ => exact Mode.allows_refl _ _⟩

theorem crc_writes (v : Half) : WritesWithin crcWrites s { s with crc := v } :=
  ⟨rfl, rfl, fun p => by cases p with
    | crc => trivial
    | _ => exact Mode.allows_refl _ _⟩

theorem sum_writes (v : Byte) : WritesWithin sumWrites s { s with sum := v } :=
  ⟨rfl, rfl, fun p => by cases p with
    | sum => trivial
    | _ => exact Mode.allows_refl _ _⟩

theorem execRd_writes (a : Byte) : CommandWrites latchWrites s (execRd a s) := by
  rw [execRd]
  split
  · exact raise_finish_writes _ _ _
  · exact completed_writes (rdata_writes s _)

theorem execWr_writes (r : Byte) (v : Word) : CommandWrites (wrWrites r) s (execWr r v s) := by
  rw [execWr]
  split
  · exact raise_finish_writes _ _ _
  rename_i hr
  split
  · exact raise_finish_writes _ _ _
  split
  case isTrue h =>
    refine completed_writes ⟨rfl, rfl, fun p => ?_⟩
    subst h
    cases p with
    | cnt => trivial
    | _ => exact Mode.allows_refl _ _
  case isFalse h =>
    obtain rfl : r = 0x07 := not_not.1 fun h7 => hr ⟨h, h7⟩
    refine completed_writes ⟨rfl, rfl, fun p => ?_⟩
    cases p with
    | ctrl => trivial
    | _ => exact Mode.allows_refl _ _

/-- Every parse result is marked stale (R155, R156). -/
theorem WritesWithin.staleSpans {W : WriteSet} {s t : State} (h : WritesWithin W s t)
    (hW : ∀ f, W (.flag f) = clearWrites (.flag f)) : WritesWithin W s t.staleSpans := by
  refine writesWithin_setFlag (writesWithin_setFlag (writesWithin_setFlag h ?_) ?_) ?_ <;> rw [hW] <;> exact .inr rfl

theorem execIbClr_writes : CommandWrites clearWrites s (execIbClr s) := by
  refine completed_writes (.staleSpans ⟨rfl, rfl, fun p => ?_⟩ fun _ => rfl)
  cases p with
  | ilen => trivial
  | _ => exact Mode.allows_refl _ _

theorem execIbLoad_writes (data : List Byte) : CommandWrites loadWrites s (execIbLoad data s) := by
  rw [execIbLoad]
  split
  · exact raise_finish_writes _ _ _
  refine completed_writes (.staleSpans ⟨rfl, rfl, fun p => ?_⟩ fun _ => rfl)
  cases p with
  | ilen | ibuf => trivial
  | _ => exact Mode.allows_refl _ _

theorem readByteOut_writes (b : Buffer) (a len : Nat) : CommandWrites latchWrites s (readByteOut s b a len).finish :=
  Run.Writes.finish (faults := True) (readByteOut_ensures (fun _ => trivial)
    ((WritesWithin.refl _ s).reported _ _ _ _) fun v => rdata_writes s v)

theorem execRdd_writes (a : Byte) : CommandWrites latchWrites s (execRdd a s) := by
  rw [execRdd]
  split
  · exact raise_finish_writes _ _ _
  · exact Run.Writes.finish (memRead_writes fun _ => rdata_writes s _)

theorem execCrcBuf_writes (a b : Half) : CommandWrites crcWrites s (execCrcBuf a b s) := by
  rw [execCrcBuf]
  split
  · exact raise_finish_writes _ _ _
  · exact Run.Writes.finish (memRead_writes fun _ => crc_writes s _)

theorem execSumBuf_writes (a b : Half) : CommandWrites sumWrites s (execSumBuf a b s) := by
  rw [execSumBuf]
  split
  · exact raise_finish_writes _ _ _
  · exact Run.Writes.finish (memRead_writes fun _ => sum_writes s _)

theorem execEnvBuild_writes (a : Word) : CommandWrites buildWrites s (execEnvBuild a s) := by
  rw [execEnvBuild]
  split
  case isFalse => exact raise_finish_writes _ _ _
  refine completed_writes (writesWithin_setFlag ⟨rfl, rfl, fun p => ?_⟩ (.inr rfl))
  cases p with
  | sum | obuf | olen | cnt => trivial
  | _ => exact Mode.allows_refl _ _

theorem execMbReq_writes (a b c : Half) : CommandWrites mbReqWrites s (execMbReq a b c s) := by
  refine completed_writes (writesWithin_setFlag (writesWithin_setFlag ⟨rfl, rfl, fun p => ?_⟩ (.inr rfl)) (.inr rfl))
  cases p with
  | pbuf | crc | olen => trivial
  | _ => exact Mode.allows_refl _ _

/-- The register views: out of range they raise, else they read into the latch (R205 to R207). -/
theorem view_writes {c : Prop} [Decidable c] (a : Nat) {r : Run} (hr : r.Writes latchWrites True s) :
    CommandWrites latchWrites s (if c then viewError a s else r).finish := by
  split
  · exact raise_finish_writes _ _ _
  · exact hr.finish

theorem execEpRun_writes : CommandWrites envelopeWrites s (execEpRun s) := (runAll_envelopeStates_writes s).finish

/-! ### The wire rows (R102, R263; log entry 7) -/

theorem foldl_execIbLoad_writes {s : State} (pieces : List (List Byte)) {o : Host.Outcome State Fault Refusal}
    (ho : CommandWrites loadWrites s o) :
    CommandWrites loadWrites s (pieces.foldl (fun o c => afterNext o (execIbLoad c)) o) := by
  induction pieces generalizing o with
  | nil => exact ho
  | cons c pieces ih =>
    refine ih fun v hv => ?_
    obtain ⟨u, hu, hv⟩ := afterNext_eq_next_iff.1 hv
    exact (ho u hu).trans (execIbLoad_writes u c v hv)

theorem setInput_writes (bytes : List Byte) : CommandWrites loadWrites s (setInput bytes s) := by
  refine foldl_execIbLoad_writes _ fun u hu => (execIbClr_writes s u hu).imp fun p a b h => ?_
  cases p with
  | ibuf => trivial
  | _ => exact h

/-- The parser run after the loads. -/
theorem parse_after_setInput_writes {W : WriteSet} {parser : State → Host.Outcome State Fault Refusal}
    (hp : ∀ u, CommandWrites W u (parser u)) (bytes : List Byte) :
    CommandWrites (messageWrites W) s (afterNext (setInput bytes s) parser) := by
  intro t h
  obtain ⟨u, hu, ht⟩ := afterNext_eq_next_iff.1 h
  have hload := (setInput_writes s bytes u hu).imp (W' := messageWrites W) fun p _ _ h => h.or_left (W p)
  exact hload.trans ((hp u t ht).imp fun p _ _ h => h.or_right (loadWrites p))

end

/-- R38: every instruction writes within its set. -/
theorem exec_writes (i : Instr) (s : State) : CommandWrites (writesOf i) s (exec i s) := by
  cases i with
  | reset => exact completed_writes ⟨rfl, rfl, fun _ => trivial⟩
  | nop => exact completed_writes (.refl _ s)
  | clrerr => exact completed_writes ⟨rfl, rfl, fun p => by cases p <;> rfl⟩
  | rd a => exact execRd_writes s a
  | wr r v => exact execWr_writes s r v
  | ibClr => exact execIbClr_writes s
  | ibLoad data => exact execIbLoad_writes s data
  | rdi a => exact readByteOut_writes s _ _ _
  | rdo a => exact readByteOut_writes s _ _ _
  | rdp a => exact readByteOut_writes s _ _ _
  | rdd a => exact execRdd_writes s a
  | crcInit => exact completed_writes (crc_writes s _)
  | crcUpd a => exact completed_writes (crc_writes s _)
  | crcBuf a b => exact execCrcBuf_writes s a b
  | sumInit => exact completed_writes (sum_writes s _)
  | sumUpd a => exact completed_writes (sum_writes s _)
  | sumBuf a b => exact execSumBuf_writes s a b
  | epRun => exact execEpRun_writes s
  | envBuild a => exact execEnvBuild_writes s a
  | mbReq a b c => exact execMbReq_writes s a b c
  | mpCmd a => exact execMpCmd_writes s a
  | mpRsp a => exact execMpRsp_writes s a
  | fxU16 a => exact view_writes s _ (regRead_writes fun _ => rdata_writes s _)
  | fxS16 a => exact view_writes s _ (regRead_writes fun _ => rdata_writes s _)
  | fxD32 a => exact view_writes s _ (regRead_writes fun _ => regRead_writes fun _ => rdata_writes s _)
  | wireEnvelopeFrame => exact parse_after_setInput_writes s execEpRun_writes _
  | wireModbusRequest => exact parse_after_setInput_writes s (execMpCmd_writes · 1) _
  | wireModbusResponseAck => exact parse_after_setInput_writes s (execMpRsp_writes · 1) _
  | wireModbusResponseEmptyRead => exact parse_after_setInput_writes s (execMpRsp_writes · 1) _
  | wireModbusResponseRead => exact parse_after_setInput_writes s (execMpRsp_writes · 1) _

end Sys2Proof.Machine

namespace Sys2Proof.Machine

/-! ## Which commands write what (R21, R23, R25, R36)

One lemma for each kind of part: `writesOf` read off for it, over all commands but `RESET`. -/

/-- A flag that may take either value took one of them. -/
theorem flag_kept_or_set_or_cleared {p q : Prop} (b b' : Bool) (hp : p) (hq : q) :
    b' = b ∨ (b' = true ∧ p) ∨ (b' = false ∧ q) := by
  cases b'
  · exact .inr (.inr ⟨rfl, hq⟩)
  · exact .inr (.inl ⟨rfl, hp⟩)

section
variable {i : Instr} {s t : State} (h : WritesWithin (writesOf i) s t) (hi : i ≠ .reset)
include h hi

theorem parseFlag_written {f : Flag} (hf : f = .eValid ∨ f = .eHaspl) :
    t.flag f = s.flag f ∨ (t.flag f = true ∧ runsEpRun i) ∨
      (t.flag f = false ∧ (runsEpRun i ∨ loadsInput i)) := by
  have hw := h.parts (.flag f)
  rcases hf with rfl | rfl <;> cases i with
  | reset => exact absurd rfl hi
  | epRun => exact flag_kept_or_set_or_cleared _ _ (.inl rfl) (.inl (.inl rfl))
  | wireEnvelopeFrame => exact flag_kept_or_set_or_cleared _ _ (.inr ⟨rfl, rfl⟩) (.inl (.inr ⟨rfl, rfl⟩))
  | ibClr => exact hw.imp_right fun e => .inr ⟨e, .inr (.inl rfl)⟩
  | ibLoad d => exact hw.imp_right fun e => .inr ⟨e, .inr (.inr (.inl ⟨d, rfl⟩))⟩
  | wireModbusRequest | wireModbusResponseAck | wireModbusResponseEmptyRead | wireModbusResponseRead =>
    exact hw.imp_right fun e => .inr ⟨e, .inr (.inr (.inr rfl))⟩
  | _ => exact .inl hw

theorem mValid_written :
    t.flag .mValid = s.flag .mValid ∨ (t.flag .mValid = true ∧ (runsMpCmd i ∨ runsMpRsp i)) ∨
      (t.flag .mValid = false ∧ (runsMpCmd i ∨ runsMpRsp i ∨ loadsInput i)) := by
  have hw := h.parts (.flag .mValid)
  cases i with
  | reset => exact absurd rfl hi
  | mpCmd a => exact flag_kept_or_set_or_cleared _ _ (.inl (.inl ⟨a, rfl⟩)) (.inl (.inl ⟨a, rfl⟩))
  | mpRsp a => exact flag_kept_or_set_or_cleared _ _ (.inr (.inl ⟨a, rfl⟩)) (.inr (.inl (.inl ⟨a, rfl⟩)))
  | wireModbusRequest => exact flag_kept_or_set_or_cleared _ _ (.inl (.inr ⟨rfl, rfl⟩)) (.inl (.inr ⟨rfl, rfl⟩))
  | wireModbusResponseAck | wireModbusResponseEmptyRead | wireModbusResponseRead =>
    exact flag_kept_or_set_or_cleared _ _ (.inr (.inr ⟨rfl, rfl⟩)) (.inr (.inl (.inr ⟨rfl, rfl⟩)))
  | ibClr => exact hw.imp_right fun e => .inr ⟨e, .inr (.inr (.inl rfl))⟩
  | ibLoad d => exact hw.imp_right fun e => .inr ⟨e, .inr (.inr (.inr (.inl ⟨d, rfl⟩)))⟩
  | wireEnvelopeFrame => exact hw.imp_right fun e => .inr ⟨e, .inr (.inr (.inr (.inr rfl)))⟩
  | _ => exact .inl hw

theorem pbValid_written :
    t.flag .pbValid = s.flag .pbValid ∨ (t.flag .pbValid = true ∧ ∃ a b c, i = .mbReq a b c) := by
  have hw := h.parts (.flag .pbValid)
  cases i with
  | reset => exact absurd rfl hi
  | mbReq a b c => exact hw.imp_right fun e => ⟨e, a, b, c, rfl⟩
  | _ => exact .inl hw

theorem obValid_written :
    t.flag .obValid = s.flag .obValid ∨ (t.flag .obValid = true ∧ ∃ a, i = .envBuild a) ∨
      (t.flag .obValid = false ∧ ∃ a b c, i = .mbReq a b c) := by
  have hw := h.parts (.flag .obValid)
  cases i with
  | reset => exact absurd rfl hi
  | envBuild a => exact hw.imp_right fun e => .inl ⟨e, a, rfl⟩
  | mbReq a b c => exact hw.imp_right fun e => .inr ⟨e, a, b, c, rfl⟩
  | _ => exact .inl hw

theorem mRsp_written :
    t.flag .mRsp = s.flag .mRsp ∨ (t.flag .mRsp = true ∧ runsMpRsp i) ∨ (t.flag .mRsp = false ∧ runsMpCmd i) := by
  have hw := h.parts (.flag .mRsp)
  cases i with
  | reset => exact absurd rfl hi
  | mpRsp a => exact hw.imp_right fun e => .inl ⟨e, .inl ⟨a, rfl⟩⟩
  | mpCmd a => exact hw.imp_right fun e => .inr ⟨e, .inl ⟨a, rfl⟩⟩
  | wireModbusRequest => exact hw.imp_right fun e => .inr ⟨e, .inr ⟨rfl, rfl⟩⟩
  | wireModbusResponseAck | wireModbusResponseEmptyRead | wireModbusResponseRead =>
    exact hw.imp_right fun e => .inl ⟨e, .inr ⟨rfl, rfl⟩⟩
  | _ => exact .inl hw

theorem cnt_written : t.cnt = s.cnt ∨ (∃ v, i = .wr 0x06 v) ∨ ∃ a, i = .envBuild a := by
  have hw := h.parts .cnt
  cases i with
  | reset => exact absurd rfl hi
  | wr r v =>
    by_cases hr : r = 0x06
    · exact .inr (.inl ⟨v, hr ▸ rfl⟩)
    · rw [show writesOf (.wr r v) .cnt = .kept from if_neg hr] at hw
      exact .inl hw
  | envBuild a => exact .inr (.inr ⟨a, rfl⟩)
  | _ => exact .inl hw

theorem ctrl_written : t.ctrl = s.ctrl ∨ ∃ v, i = .wr 0x07 v := by
  have hw := h.parts .ctrl
  cases i with
  | reset => exact absurd rfl hi
  | wr r v =>
    by_cases hr : r = 0x07
    · exact .inr ⟨v, hr ▸ rfl⟩
    · rw [show writesOf (.wr r v) .ctrl = .kept from if_neg hr] at hw
      exact .inl hw
  | _ => exact .inl hw

theorem rdata_written :
    t.rdata = s.rdata ∨ (∃ a, i = .rd a) ∨ (∃ a, i = .rdi a) ∨ (∃ a, i = .rdo a) ∨ (∃ a, i = .rdp a) ∨
      (∃ a, i = .rdd a) ∨ (∃ a, i = .fxU16 a) ∨ (∃ a, i = .fxS16 a) ∨ ∃ a, i = .fxD32 a := by
  have hw := h.parts .rdata
  cases i with
  | reset => exact absurd rfl hi
  | rd a | rdi a | rdo a | rdp a | rdd a | fxU16 a | fxS16 a | fxD32 a => right; simp
  | _ => exact .inl hw

theorem ilen_written : t.ilen = s.ilen ∨ loadsInput i := by
  have hw := h.parts .ilen
  cases i with
  | reset => exact absurd rfl hi
  | ibClr => exact .inr (.inl rfl)
  | ibLoad d => exact .inr (.inr (.inl ⟨d, rfl⟩))
  | wireEnvelopeFrame | wireModbusRequest | wireModbusResponseAck | wireModbusResponseEmptyRead
  | wireModbusResponseRead => exact .inr (.inr (.inr rfl))
  | _ => exact .inl hw

theorem ibuf_written : t.ibuf = s.ibuf ∨ (∃ d, i = .ibLoad d) ∨ isWireRow i = true := by
  have hw := h.parts .ibuf
  cases i with
  | reset => exact absurd rfl hi
  | ibLoad d => exact .inr (.inl ⟨d, rfl⟩)
  | wireEnvelopeFrame | wireModbusRequest | wireModbusResponseAck | wireModbusResponseEmptyRead
  | wireModbusResponseRead => exact .inr (.inr rfl)
  | _ => exact .inl hw

theorem pbuf_written : t.pbuf = s.pbuf ∨ ∃ a b c, i = .mbReq a b c := by
  have hw := h.parts .pbuf
  cases i with
  | reset => exact absurd rfl hi
  | mbReq a b c => exact .inr ⟨a, b, c, rfl⟩
  | _ => exact .inl hw

theorem obuf_written : t.obuf = s.obuf ∨ ∃ a, i = .envBuild a := by
  have hw := h.parts .obuf
  cases i with
  | reset => exact absurd rfl hi
  | envBuild a => exact .inr ⟨a, rfl⟩
  | _ => exact .inl hw

theorem olen_written : t.olen = s.olen ∨ (∃ a, i = .envBuild a) ∨ ∃ a b c, i = .mbReq a b c := by
  have hw := h.parts .olen
  cases i with
  | reset => exact absurd rfl hi
  | envBuild a => exact .inr (.inl ⟨a, rfl⟩)
  | mbReq a b c => exact .inr (.inr ⟨a, b, c, rfl⟩)
  | _ => exact .inl hw

/-- `CHK_BAD`, `E_DATA`, `E_STATE` and the `E_*` registers. -/
theorem envelopePart_written {p : Part} (hp : p = .flag .chkBad ∨ p = .eData ∨ p = .envelope) :
    t.content p = s.content p ∨ runsEpRun i := by
  have hw := h.parts p
  rcases hp with rfl | rfl | rfl <;> cases i with
  | reset => exact absurd rfl hi
  | epRun => exact .inr (.inl rfl)
  | wireEnvelopeFrame => exact .inr (.inr ⟨rfl, rfl⟩)
  | _ => exact .inl hw

/-- `CRC_BAD`, `M_STATE` and the `M_*` registers of both parsers. -/
theorem modbusPart_written {p : Part} (hp : p = .flag .crcBad ∨ p = .modbus) :
    t.content p = s.content p ∨ runsMpCmd i ∨ runsMpRsp i := by
  have hw := h.parts p
  rcases hp with rfl | rfl <;> cases i with
  | reset => exact absurd rfl hi
  | mpCmd a => exact .inr (.inl (.inl ⟨a, rfl⟩))
  | mpRsp a => exact .inr (.inr (.inl ⟨a, rfl⟩))
  | wireModbusRequest => exact .inr (.inl (.inr ⟨rfl, rfl⟩))
  | wireModbusResponseAck | wireModbusResponseEmptyRead | wireModbusResponseRead =>
    exact .inr (.inr (.inr ⟨rfl, rfl⟩))
  | _ => exact .inl hw

theorem mReg_written : t.mReg = s.mReg ∨ runsMpRsp i ∨ (runsMpCmd i ∧ t.mReg = []) := by
  have hw := h.parts .mReg
  cases i with
  | reset => exact absurd rfl hi
  | mpCmd a => exact hw.imp_right fun e => .inr ⟨.inl ⟨a, rfl⟩, e⟩
  | mpRsp a => exact .inr (.inl (.inl ⟨a, rfl⟩))
  | wireModbusRequest => exact hw.imp_right fun e => .inr ⟨.inr ⟨rfl, rfl⟩, e⟩
  | wireModbusResponseAck | wireModbusResponseEmptyRead | wireModbusResponseRead =>
    exact .inr (.inl (.inr ⟨rfl, rfl⟩))
  | _ => exact .inl hw

/-- `M_LEN` and `M_NREG`: `MP.CMD` at most clears them (log entry 11). -/
theorem response_written :
    t.content .response = s.content .response ∨ runsMpRsp i ∨ (runsMpCmd i ∧ t.content .response = (0, 0)) := by
  have hw := h.parts .response
  cases i with
  | reset => exact absurd rfl hi
  | mpCmd a => exact hw.imp_right fun e => .inr ⟨.inl ⟨a, rfl⟩, e⟩
  | mpRsp a => exact .inr (.inl (.inl ⟨a, rfl⟩))
  | wireModbusRequest => exact hw.imp_right fun e => .inr ⟨.inr ⟨rfl, rfl⟩, e⟩
  | wireModbusResponseAck | wireModbusResponseEmptyRead | wireModbusResponseRead =>
    exact .inr (.inl (.inr ⟨rfl, rfl⟩))
  | _ => exact .inl hw

/-- `M_START` and `M_COUNT`: `MP.RSP` at most clears them (log entry 11). -/
theorem request_written :
    t.content .request = s.content .request ∨ runsMpCmd i ∨ (runsMpRsp i ∧ t.content .request = (0, 0)) := by
  have hw := h.parts .request
  cases i with
  | reset => exact absurd rfl hi
  | mpCmd a => exact .inr (.inl (.inl ⟨a, rfl⟩))
  | mpRsp a => exact hw.imp_right fun e => .inr ⟨.inl ⟨a, rfl⟩, e⟩
  | wireModbusRequest => exact .inr (.inl (.inr ⟨rfl, rfl⟩))
  | wireModbusResponseAck | wireModbusResponseEmptyRead | wireModbusResponseRead =>
    exact hw.imp_right fun e => .inr ⟨.inr ⟨rfl, rfl⟩, e⟩
  | _ => exact .inl hw

theorem crc_written :
    t.crc = s.crc ∨ i = .crcInit ∨ (∃ a, i = .crcUpd a) ∨ (∃ a b, i = .crcBuf a b) ∨ (∃ a b c, i = .mbReq a b c) ∨
      runsMpCmd i ∨ runsMpRsp i := by
  have hw := h.parts .crc
  cases i with
  | reset => exact absurd rfl hi
  | crcInit | crcUpd a | crcBuf a b | mbReq a b c => right; simp
  | mpCmd a | mpRsp a => right; simp [runsMpCmd, runsMpRsp]
  | wireModbusRequest | wireModbusResponseAck | wireModbusResponseEmptyRead | wireModbusResponseRead =>
    right; simp [runsMpCmd, runsMpRsp, isWireRow, parserOf]
  | _ => exact .inl hw

theorem sum_written :
    t.sum = s.sum ∨ i = .sumInit ∨ (∃ a, i = .sumUpd a) ∨ (∃ a b, i = .sumBuf a b) ∨ (∃ a, i = .envBuild a) ∨
      runsEpRun i := by
  have hw := h.parts .sum
  cases i with
  | reset => exact absurd rfl hi
  | sumInit | sumUpd a | sumBuf a b | envBuild a => right; simp
  | epRun => right; simp [runsEpRun]
  | wireEnvelopeFrame => right; simp [runsEpRun, isWireRow, parserOf]
  | _ => exact .inl hw

end

/-- `E_STATE` and the `E_*` registers put back make no difference where they were kept. -/
theorem eq_of_envelope_kept {s t : State} (h : t.content .envelope = s.content .envelope) :
    t = { t with
      eState := s.eState, eStart := s.eStart, eLen := s.eLen, eCtrl := s.eCtrl, eCnt := s.eCnt, eSer := s.eSer
      ePoff := s.ePoff, ePlen := s.ePlen, eChk := s.eChk, eEnd := s.eEnd, eToff := s.eToff, eTlen := s.eTlen
      eNent := s.eNent } := by
  simp only [State.content, Prod.mk.injEq] at h
  obtain ⟨hState, hStart, hLen, hCtrl, hCnt, hSer, hPoff, hPlen, hChk, hEnd, hToff, hTlen, hNent⟩ := h
  rw [← hState, ← hStart, ← hLen, ← hCtrl, ← hCnt, ← hSer, ← hPoff, ← hPlen, ← hChk, ← hEnd, ← hToff, ← hTlen, ← hNent]

/-- `M_STATE` and the `M_*` registers of both parsers put back make no difference where they were kept. -/
theorem eq_of_modbus_kept {s t : State} (h : t.content .modbus = s.content .modbus) :
    t = { t with
      mState := s.mState, mFc := s.mFc, mCrc := s.mCrc, mToff := s.mToff, mTlen := s.mTlen, mNent := s.mNent
      mBase := s.mBase, mSlen := s.mSlen } := by
  simp only [State.content, Prod.mk.injEq] at h
  obtain ⟨hState, hFc, hCrc, hToff, hTlen, hNent, hBase, hSlen⟩ := h
  rw [← hState, ← hFc, ← hCrc, ← hToff, ← hTlen, ← hNent, ← hBase, ← hSlen]

/-- Who writes the error record (R26, R226): `errorRecordFollowsTheOutcome`, with what `CLRERR` leaves. -/
theorem record_written {i : Instr} {s t : State} (ht : exec i s = .next t) (hi : i ≠ .reset) :
    (t.err = s.err ∧ t.errPos = s.errPos ∧ t.errEnt = s.errEnt) ∨
      (i = .clrerr ∧ t.err = 0 ∧ t.errPos = 0 ∧ t.errEnt = 0) ∨
      (∃ e, t.outcome = some (.error e) ∧ t.err = e.code) ∨
      (t.outcome = some .okFlagged ∧ t.err = 3 ∧ (runsEpRun i ∨ runsMpCmd i ∨ runsMpRsp i)) ∨ isWireRow i = true := by
  rcases errorRecordFollowsTheOutcome i s t ht with
    ⟨-, rfl | hr | hw | hsame⟩ | ⟨ho, he, hp | hp | hp | hw⟩ | ⟨e, ho, he, -, -⟩
  · cases ht
    exact .inr (.inl ⟨rfl, rfl, rfl, rfl⟩)
  · exact absurd hr hi
  · exact .inr (.inr (.inr (.inr hw)))
  · exact .inl hsame
  · exact .inr (.inr (.inr (.inl ⟨ho, he, .inl (.inl hp)⟩)))
  · exact .inr (.inr (.inr (.inl ⟨ho, he, .inr (.inl (.inl hp))⟩)))
  · exact .inr (.inr (.inr (.inl ⟨ho, he, .inr (.inr (.inl hp))⟩)))
  · exact .inr (.inr (.inr (.inr hw)))
  · exact .inr (.inr (.inl ⟨e, ho, he⟩))

theorem read_eq_of_eq {w : Nat} {m m' : Mem w} (h : m' = m) (a : Nat) : Mem.read m' a = Mem.read m a := by rw [h]

/-- Settles O53: every command writes within its set, and each clause reads one part off that set. -/
theorem onlyTheNamedCommandsWrite : Obligations.OnlyTheNamedCommandsWrite := by
  intro i s t ht hi
  have h := exec_writes i s t ht
  refine ⟨h.cfg, h.pending, parseFlag_written h hi (.inl rfl), parseFlag_written h hi (.inr rfl),
    envelopePart_written h hi (p := .flag .chkBad) (.inl rfl), mValid_written h hi,
    modbusPart_written h hi (p := .flag .crcBad) (.inl rfl), pbValid_written h hi, obValid_written h hi,
    mRsp_written h hi, record_written ht hi, cnt_written h hi, ctrl_written h hi, rdata_written h hi, ilen_written h hi,
    (ibuf_written h hi).imp_left read_eq_of_eq, (pbuf_written h hi).imp_left read_eq_of_eq,
    (obuf_written h hi).imp_left read_eq_of_eq, olen_written h hi,
    (envelopePart_written h hi (p := .eData) (.inr (.inl rfl))).imp_left read_eq_of_eq, ?mReg, crc_written h hi,
    sum_written h hi, (envelopePart_written h hi (.inr (.inr rfl))).imp_left eq_of_envelope_kept,
    (modbusPart_written h hi (.inr rfl)).imp_left eq_of_modbus_kept, ?response, ?request⟩
  case mReg => exact (mReg_written h hi).imp read_eq_of_eq (.imp_right (.imp_right fun e a => read_eq_of_eq e a))
  case response => simpa only [State.content, Prod.mk.injEq] using response_written h hi
  case request => simpa only [State.content, Prod.mk.injEq] using request_written h hi

end Sys2Proof.Machine

namespace Sys2Proof.Machine

/-! ## The invariant, unit by unit (R31 to R37)

`MachineInv` is the legality of the parameters, the range of `ERR`, and one invariant for each unit of the block. A
command that writes nothing a unit's invariant speaks of keeps it, by `exec_writes`. -/

/-- The input buffer (R31). -/
structure InputInv (s : State) : Prop where
  wf : Mem.wf s.ibuf = true
  fits : Mem.below s.cfg.ibufMax s.ibuf = true
  ilenMax : s.ilen.toNat ≤ s.cfg.ibufMax

/-- The request and the frame that are built (R31, R37). -/
structure OutputInv (s : State) : Prop where
  pbufWf : Mem.wf s.pbuf = true
  obufWf : Mem.wf s.obuf = true
  pbufFits : Mem.below reqLen s.pbuf = true
  obufFits : Mem.below s.cfg.obufLen s.obuf = true
  olenValid : s.olen.toNat = if s.flag .obValid then s.cfg.obufLen else 0
  requestBuilt : s.flag .obValid = true → s.flag .pbValid = true

/-- What an envelope parse has decoded (R32, R178, R183). -/
structure EnvelopeInv (s : State) : Prop where
  wf : Mem.wf s.eData = true
  fits : Mem.below s.cfg.dataLen s.eData = true
  decoded : (s.eState.toNat = 0 ∧ s.eNent.toNat = 0) ∨ (s.eState.toNat = s.eNent.toNat + 1 ∧ s.eNent.toNat ≤ 9)
  payloadFits : s.flag .eHaspl = true → s.ePoff.toNat = s.cfg.payloadOffset ∧
    s.eLen.toNat = s.ePlen.toNat + s.cfg.lenBias ∧ s.ePoff.toNat + s.ePlen.toNat ≤ s.ilen.toNat ∧ 7 ≤ s.eNent.toNat
  valid : s.flag .eValid = true → s.flag .eHaspl = true ∧ s.eStart = startDelim ∧ s.eEnd = endDelim ∧
    s.eNent.toNat = 9 ∧ s.eToff.toNat = s.cfg.payloadOffset + 2 + s.ePlen.toNat ∧
    s.eToff.toNat + s.eTlen.toNat = s.ilen.toNat

/-- What a Modbus parse has decoded (R33, R199, R204). -/
structure ModbusInv (s : State) : Prop where
  wf : Mem.wf s.mReg = true
  fits : Mem.below s.cfg.catalogRegs s.mReg = true
  range : s.mState.toNat ≤ 7
  registersFit : s.mNreg.toNat ≤ s.cfg.catalogRegs
  valid : s.flag .mValid = true → s.mState.toNat = 7 ∧ s.mToff.toNat + s.mTlen.toNat = s.mSlen.toNat ∧
    s.mBase.toNat + s.mSlen.toNat ≤ s.ilen.toNat

theorem machineInv_iff (s : State) :
    MachineInv s ↔ s.cfg.legal ∧ s.err.toNat ≤ 7 ∧ InputInv s ∧ OutputInv s ∧ EnvelopeInv s ∧ ModbusInv s := by
  constructor
  · intro h
    obtain ⟨hi, hp, ho, hd, hm⟩ := h.arraysWf
    obtain ⟨bi, bp, bo, bd, bm⟩ := h.arraysFit
    exact ⟨h.cfgLegal, h.errRange, ⟨hi, bi, h.ilenMax⟩, ⟨hp, ho, bp, bo, h.olenValid, h.requestBuilt⟩,
      ⟨hd, bd, h.envelopeAt, h.payloadFits, h.envelopeValid⟩, ⟨hm, bm, h.modbusRange, h.registersFit, h.modbusValid⟩⟩
  · rintro ⟨hc, he, ⟨hi, bi, hl⟩, ⟨hp, ho, bp, bo, hol, hr⟩, ⟨hd, bd, ha, hpl, hv⟩, ⟨hm, bm, hs, hn, hmv⟩⟩
    exact ⟨hc, ⟨hi, hp, ho, hd, hm⟩, ⟨bi, bp, bo, bd, bm⟩, hl, hol, hr, he, ha, hs, hpl, hv, hn, hmv⟩

/-! ### Units that a command leaves alone -/

section
variable {s t : State}

theorem InputInv.of_kept (h : InputInv s) (hcfg : t.cfg = s.cfg) (hibuf : t.ibuf = s.ibuf) (hilen : t.ilen = s.ilen) :
    InputInv t := by
  obtain ⟨wf, fits, ilenMax⟩ := h
  constructor <;> simpa only [hcfg, hibuf, hilen]

theorem OutputInv.of_kept (h : OutputInv s) (hcfg : t.cfg = s.cfg) (hpbuf : t.pbuf = s.pbuf) (hobuf : t.obuf = s.obuf)
    (holen : t.olen = s.olen) (hob : t.flag .obValid = s.flag .obValid) (hpb : t.flag .pbValid = s.flag .pbValid) :
    OutputInv t := by
  obtain ⟨pbufWf, obufWf, pbufFits, obufFits, olenValid, requestBuilt⟩ := h
  constructor <;> simpa only [hcfg, hpbuf, hobuf, holen, hob, hpb]

theorem EnvelopeInv.of_kept (h : EnvelopeInv s) (hcfg : t.cfg = s.cfg) (hilen : t.ilen = s.ilen)
    (hdata : t.eData = s.eData) (hregs : t.content .envelope = s.content .envelope)
    (hhaspl : t.flag .eHaspl = s.flag .eHaspl) (hvalid : t.flag .eValid = s.flag .eValid) : EnvelopeInv t := by
  simp only [State.content, Prod.mk.injEq] at hregs
  obtain ⟨hState, hStart, hLen, -, -, -, hPoff, hPlen, -, hEnd, hToff, hTlen, hNent⟩ := hregs
  obtain ⟨wf, fits, decoded, payloadFits, valid⟩ := h
  constructor <;>
    simpa only [hcfg, hilen, hdata, hState, hStart, hLen, hPoff, hPlen, hEnd, hToff, hTlen, hNent, hhaspl, hvalid]

theorem ModbusInv.of_kept (h : ModbusInv s) (hcfg : t.cfg = s.cfg) (hilen : t.ilen = s.ilen) (hreg : t.mReg = s.mReg)
    (hregs : t.content .modbus = s.content .modbus) (hresponse : t.content .response = s.content .response)
    (hvalid : t.flag .mValid = s.flag .mValid) : ModbusInv t := by
  simp only [State.content, Prod.mk.injEq] at hregs hresponse
  obtain ⟨hState, -, -, hToff, hTlen, -, hBase, hSlen⟩ := hregs
  obtain ⟨-, hNreg⟩ := hresponse
  obtain ⟨wf, fits, range, registersFit, valid⟩ := h
  constructor <;> simpa only [hcfg, hilen, hreg, hState, hToff, hTlen, hBase, hSlen, hNreg, hvalid]

end

/-! ### Loading the input (R155, R156) -/

section
variable {s t : State}

/-- An `IB.LOAD` is refused whole, or appends all of its data. -/
theorem execIbLoad_cases {data : List Byte} (h : execIbLoad data s = .next t) :
    t = s.reported .outOfRange s.ilen.toNat 0 (.error .outOfRange) ∨
    (s.ilen.toNat + data.length ≤ s.cfg.ibufMax ∧ t = State.withOutcome (State.staleSpans { s with
      ibuf := Mem.writeRange s.ibuf s.ilen.toNat data
      ilen := BitVec.ofNat 16 (s.ilen.toNat + data.length) }) .ok) := by
  rw [execIbLoad] at h
  split at h
  case isTrue => cases h; exact .inl rfl
  case isFalse hl => cases h; exact .inr ⟨Nat.not_lt.1 hl, rfl⟩

theorem InputInv.ibLoad (h : InputInv s) {data : List Byte} (ht : execIbLoad data s = .next t) : InputInv t := by
  rcases execIbLoad_cases ht with rfl | ⟨hl, rfl⟩
  · exact ⟨h.wf, h.fits, h.ilenMax⟩
  · exact ⟨Mem.wf_writeRange _ _ _ h.wf, Mem.below_writeRange _ _ _ _ h.fits hl,
      Nat.le_trans (Nat.mod_le _ _) hl⟩

/-- Other bytes in the input leave no payload span and no valid envelope (R68). -/
theorem EnvelopeInv.stale (h : EnvelopeInv s) (m : Mem 8) (n : Half) :
    EnvelopeInv (State.withOutcome (State.staleSpans { s with ibuf := m, ilen := n }) .ok) where
  wf := h.wf
  fits := h.fits
  decoded := h.decoded
  payloadFits hf := absurd hf (by simp)
  valid hf := absurd hf (by simp)

/-- Other bytes in the input leave no valid Modbus parse (R68). -/
theorem ModbusInv.stale (h : ModbusInv s) (m : Mem 8) (n : Half) :
    ModbusInv (State.withOutcome (State.staleSpans { s with ibuf := m, ilen := n }) .ok) where
  wf := h.wf
  fits := h.fits
  range := h.range
  registersFit := h.registersFit
  valid hf := absurd hf (by simp)

theorem EnvelopeInv.ibLoad (h : EnvelopeInv s) {data : List Byte} (ht : execIbLoad data s = .next t) :
    EnvelopeInv t := by
  rcases execIbLoad_cases ht with rfl | ⟨-, rfl⟩
  · exact ⟨h.wf, h.fits, h.decoded, h.payloadFits, h.valid⟩
  · exact h.stale _ _

theorem ModbusInv.ibLoad (h : ModbusInv s) {data : List Byte} (ht : execIbLoad data s = .next t) : ModbusInv t := by
  rcases execIbLoad_cases ht with rfl | ⟨-, rfl⟩
  · exact ⟨h.wf, h.fits, h.range, h.registersFit, h.valid⟩
  · exact h.stale _ _

end

/-! ### Building a request and a frame (R184, R190) -/

section
variable {s t : State}

/-- The sizes that a legal configuration fixes (R8). -/
theorem sizes_of_legal {c : Config} (h : c.legal) : c.dataLen = 15 ∧ c.payloadOffset = 26 ∧ c.obufLen = 36 := by
  obtain ⟨-, -, -, -, hd⟩ := h
  have hlen : c.dataPattern.length = 15 := by rw [hd]; rfl
  exact ⟨hlen, congrArg (11 + ·) hlen, congrArg (11 + · + 8 + 2) hlen⟩

@[simp] theorem length_frameDraft (s : State) (serial : Word) : (frameDraft s serial).length = s.cfg.obufLen := by
  simp [frameDraft, Config.obufLen, Config.dataLen, hdrLen, reqLen, tailLen]
  omega

theorem OutputInv.mbReq (h : OutputInv s) {a b c : Half} (ht : execMbReq a b c s = .next t) : OutputInv t := by
  cases ht
  exact {
    pbufWf := Mem.wf_writeRange _ _ _ h.pbufWf
    obufWf := h.obufWf
    pbufFits := Mem.below_writeRange _ _ _ _ h.pbufFits (by simp)
    obufFits := h.obufFits
    olenValid := by simp
    requestBuilt := by simp }

theorem OutputInv.envBuild (hc : s.cfg.legal) (h : OutputInv s) {a : Word} (ht : execEnvBuild a s = .next t) :
    OutputInv t := by
  rw [execEnvBuild] at ht
  split at ht
  case isFalse =>
    cases ht
    exact ⟨h.pbufWf, h.obufWf, h.pbufFits, h.obufFits, h.olenValid, h.requestBuilt⟩
  case isTrue hpb =>
    cases ht
    obtain ⟨-, -, hlen⟩ := sizes_of_legal hc
    have hcheck : s.cfg.payloadOffset - 1 + reqLen + 1 < s.cfg.obufLen := by
      show 11 + s.cfg.dataLen - 1 + 8 + 1 < 11 + s.cfg.dataLen + 8 + 2
      omega
    exact {
      pbufWf := h.pbufWf
      obufWf := Mem.wf_write _ _ _ (Mem.wf_writeRange _ _ _ h.obufWf)
      pbufFits := h.pbufFits
      obufFits := Mem.below_write _ _ _ _ (Mem.below_writeRange _ _ _ _ h.obufFits (by simp)) hcheck
      olenValid := by simp [hlen]
      requestBuilt := fun _ => by rw [State.flag_withOutcome, State.flag_setFlag]; exact hpb }

end

/-! ### The envelope parse (R171 to R183) -/

section
variable {s : State}

/-- What holds of the state with `n` entries of the frame decoded and the parse not yet done. -/
structure EnvelopeStage (n : Nat) (s : State) : Prop where
  legal : s.cfg.legal
  inv : EnvelopeInv s
  entries : s.eNent.toNat = n
  notValid : s.flag .eValid = false
  haspl : s.flag .eHaspl = decide (7 ≤ n)
  start : 1 ≤ n → s.eStart = startDelim
  tail : 9 ≤ n → s.eEnd = endDelim ∧ s.cfg.payloadOffset + 2 + s.payloadLen ≤ s.ilen.toNat

theorem EnvelopeInv.reported (h : EnvelopeInv s) (e : ErrorName) (pos ent : Nat) (o : CommandOutcome) :
    EnvelopeInv (s.reported e pos ent o) := ⟨h.wf, h.fits, h.decoded, h.payloadFits, h.valid⟩

theorem EnvelopeInv.withOutcome (h : EnvelopeInv s) (o : CommandOutcome) : EnvelopeInv (s.withOutcome o) :=
  ⟨h.wf, h.fits, h.decoded, h.payloadFits, h.valid⟩

/-- What `EP.RUN` clears first (R171). -/
theorem EnvelopeStage.clear (hc : s.cfg.legal) : EnvelopeStage 0 s.envelopeClear where
  legal := hc
  inv :=
    { wf := rfl
      fits := rfl
      decoded := .inr ⟨rfl, Nat.zero_le _⟩
      payloadFits := fun hf => absurd hf (by simp)
      valid := fun hf => absurd hf (by simp) }
  entries := rfl
  notValid := by simp
  haspl := by simp
  start hn := absurd hn (by decide)
  tail hn := absurd hn (by decide)

/-- An entry before the payload is decoded (R172 to R177): it writes only fields that no promise speaks of yet. -/
theorem EnvelopeStage.header {n : Nat} (h : EnvelopeStage n s) (hn : n < 6) {st : EnvelopeState}
    (hst : st.code.toNat = n + 2) {start : Byte} (hstart : start = startDelim) {len ctrl cnt : Half} {ser : Word}
    {data : Mem 8} (hwf : Mem.wf data = true) (hfits : Mem.below s.cfg.dataLen data = true) :
    EnvelopeStage (n + 1) (State.envelopeAt
      { s with eStart := start, eLen := len, eCtrl := ctrl, eCnt := cnt, eSer := ser, eData := data } (n + 1) st) := by
  have hhaspl : s.flag .eHaspl = false := h.haspl.trans (decide_eq_false (by omega))
  have hnent : (BitVec.ofNat 8 (n + 1)).toNat = n + 1 := Nat.mod_eq_of_lt (by omega)
  exact {
    legal := h.legal
    inv :=
      { wf := hwf
        fits := hfits
        decoded := .inr ⟨hst.trans (congrArg (· + 1) hnent.symm), hnent.trans_le (by omega)⟩
        payloadFits := fun hf => absurd (hhaspl.symm.trans hf) Bool.false_ne_true
        valid := fun hf => absurd (h.notValid.symm.trans hf) Bool.false_ne_true }
    entries := hnent
    notValid := h.notValid
    haspl := hhaspl.trans (decide_eq_false (by omega)).symm
    start := fun _ => hstart
    tail := fun h9 => absurd h9 (by omega) }


theorem envelopeStart_stage (h : EnvelopeStage 0 s) :
    (envelopeStart s).Ensures (EnvelopeStage 1) EnvelopeInv True := by
  rcases Nat.lt_or_ge s.ilen.toNat 1 with hshort | hwhole
  · rw [envelopeStart_short hshort]
    exact raise_ensures (h.inv.reported _ _ _ _)
  by_cases hb : Mem.read s.ibuf 0 = startDelim
  · rw [envelopeStart_go hwhole hb]
    exact h.header (by decide) rfl rfl h.inv.wf h.inv.fits
  · rw [envelopeStart_bad hwhole hb]
    exact raise_ensures ⟨h.inv.wf, h.inv.fits, h.inv.decoded, h.inv.payloadFits,
      fun hf => absurd (h.notValid.symm.trans hf) Bool.false_ne_true⟩

theorem envelopeLength_stage (h : EnvelopeStage 1 s) :
    (envelopeLength s).Ensures (EnvelopeStage 2) EnvelopeInv True :=
  take_ensures (fun _ => h.inv.reported _ _ _ _) fun _ =>
    h.header (by decide) rfl (h.start (by decide)) h.inv.wf h.inv.fits

theorem envelopeControl_stage (h : EnvelopeStage 2 s) :
    (envelopeControl s).Ensures (EnvelopeStage 3) EnvelopeInv True :=
  take_ensures (fun _ => h.inv.reported _ _ _ _) fun _ =>
    h.header (by decide) rfl (h.start (by decide)) h.inv.wf h.inv.fits

theorem envelopeCounter_stage (h : EnvelopeStage 3 s) :
    (envelopeCounter s).Ensures (EnvelopeStage 4) EnvelopeInv True :=
  take_ensures (fun _ => h.inv.reported _ _ _ _) fun _ =>
    h.header (by decide) rfl (h.start (by decide)) h.inv.wf h.inv.fits

theorem envelopeSerial_stage (h : EnvelopeStage 4 s) :
    (envelopeSerial s).Ensures (EnvelopeStage 5) EnvelopeInv True :=
  take_ensures (fun _ => h.inv.reported _ _ _ _) fun _ =>
    h.header (by decide) rfl (h.start (by decide)) h.inv.wf h.inv.fits

theorem envelopeData_stage (h : EnvelopeStage 5 s) :
    (envelopeData s).Ensures (EnvelopeStage 6) EnvelopeInv True :=
  take_ensures (fun _ => h.inv.reported _ _ _ _) fun _ =>
    h.header (by decide) rfl (h.start (by decide)) (Mem.wf_writeRange _ _ _ h.inv.wf)
      (Mem.below_writeRange _ _ _ _ h.inv.fits (by simp))

/-- The payload's extent is stored only where it lies in the input (R178). -/
theorem envelopePayload_stage (h : EnvelopeStage 6 s) :
    (envelopePayload s).Ensures (EnvelopeStage 7) EnvelopeInv True := by
  rcases Nat.lt_or_ge s.eLen.toNat s.cfg.lenBias with hsmall | hbias
  · rw [envelopePayload_small hsmall]
    exact raise_ensures (h.inv.reported _ _ _ _)
  rcases Nat.lt_or_ge s.ilen.toNat (s.cfg.payloadOffset + s.payloadLen) with hshort | hwhole
  · rw [envelopePayload_short hbias hshort]
    exact raise_ensures (h.inv.reported _ _ _ _)
  rw [envelopePayload_go hbias hwhole]
  have hilen := s.ilen.isLt
  have hoff : (BitVec.ofNat 16 s.cfg.payloadOffset).toNat = s.cfg.payloadOffset := Nat.mod_eq_of_lt (by omega)
  have hlen : (BitVec.ofNat 16 s.payloadLen).toNat = s.payloadLen := Nat.mod_eq_of_lt (by omega)
  exact {
    legal := h.legal
    inv :=
      { wf := h.inv.wf
        fits := h.inv.fits
        decoded := .inr ⟨rfl, (by decide : 7 ≤ 9)⟩
        payloadFits := fun _ => ⟨hoff, (Nat.sub_add_cancel hbias).symm.trans (congrArg (· + _) hlen.symm),
          (congrArg₂ (· + ·) hoff hlen).trans_le hwhole, Nat.le_refl 7⟩
        valid := fun hf => absurd hf (by simp [h.notValid]) }
    entries := rfl
    notValid := by simp [h.notValid]
    haspl := by simp
    start := fun _ => h.start (by decide)
    tail := fun h9 => absurd h9 (by decide) }

theorem envelopeChecksum_stage (h : EnvelopeStage 7 s) :
    (envelopeChecksum s).Ensures (EnvelopeStage 8) EnvelopeInv True := by
  rcases Nat.lt_or_ge s.ilen.toNat (s.cfg.payloadOffset + s.payloadLen + 1) with hshort | hwhole
  · rw [envelopeChecksum_short hshort]
    exact raise_ensures (h.inv.reported _ _ _ _)
  rw [envelopeChecksum_go hwhole]
  have hhaspl : s.flag .eHaspl = true := h.haspl
  obtain ⟨hoff, hlen, hfit, -⟩ := h.inv.payloadFits hhaspl
  exact {
    legal := h.legal
    inv :=
      { wf := h.inv.wf
        fits := h.inv.fits
        decoded := .inr ⟨rfl, (by decide : 8 ≤ 9)⟩
        payloadFits := fun _ => ⟨hoff, hlen, hfit, (by decide : 7 ≤ 8)⟩
        valid := fun hf => absurd hf (by simp [h.notValid]) }
    entries := rfl
    notValid := by simp [h.notValid]
    haspl := by simp [hhaspl]
    start := fun _ => h.start (by decide)
    tail := fun h9 => absurd h9 (by decide) }

theorem envelopeEnd_stage (h : EnvelopeStage 8 s) :
    (envelopeEnd s).Ensures (EnvelopeStage 9) EnvelopeInv True := by
  rcases Nat.lt_or_ge s.ilen.toNat (s.cfg.payloadOffset + 1 + s.payloadLen + 1) with hshort | hwhole
  · rw [envelopeEnd_short hshort]
    exact raise_ensures (h.inv.reported _ _ _ _)
  by_cases hb : Mem.read s.ibuf (s.cfg.payloadOffset + 1 + s.payloadLen) = endDelim
  · rw [envelopeEnd_go hwhole hb]
    have hhaspl : s.flag .eHaspl = true := h.haspl
    obtain ⟨hoff, hlen, hfit, -⟩ := h.inv.payloadFits hhaspl
    exact {
      legal := h.legal
      inv :=
        { wf := h.inv.wf
          fits := h.inv.fits
          decoded := .inr ⟨rfl, Nat.le_refl 9⟩
          payloadFits := fun _ => ⟨hoff, hlen, hfit, (by decide : 7 ≤ 9)⟩
          valid := fun hf => absurd hf (by simp [h.notValid]) }
      entries := rfl
      notValid := h.notValid
      haspl := hhaspl
      start := fun _ => h.start (by decide)
      tail := fun _ => ⟨rfl, by simp only [envelopeEnded_cfg, envelopeEnded_payloadLen, envelopeEnded_ilen]; omega⟩ }
  · rw [envelopeEnd_bad hwhole hb]
    exact raise_ensures ⟨h.inv.wf, h.inv.fits, h.inv.decoded, h.inv.payloadFits,
      fun hf => absurd (h.notValid.symm.trans hf) Bool.false_ne_true⟩

/-- With both delimiters right and the trailing span stored, the parse is valid (R181, R183). -/
theorem EnvelopeStage.finished (h : EnvelopeStage 9 s) : EnvelopeInv s.envelopeFinished := by
  have hhaspl : s.flag .eHaspl = true := h.haspl
  obtain ⟨hoff, hlen, hfit, -⟩ := h.inv.payloadFits hhaspl
  obtain ⟨hend, htail⟩ := h.tail (by decide)
  have hpl : s.payloadLen = s.ePlen.toNat := by rw [State.payloadLen, hlen, Nat.add_sub_cancel]
  have hilen := s.ilen.isLt
  have hentries := h.entries
  have htoff : s.envelopeFinished.eToff.toNat = s.cfg.payloadOffset + 2 + s.payloadLen := Nat.mod_eq_of_lt (by omega)
  have htlen : s.envelopeFinished.eTlen.toNat = s.ilen.toNat - (s.cfg.payloadOffset + 2 + s.payloadLen) :=
    Nat.mod_eq_of_lt (by omega)
  exact {
    wf := h.inv.wf
    fits := h.inv.fits
    decoded := h.inv.decoded
    payloadFits := fun _ => ⟨hoff, hlen, hfit, by simp [hentries]⟩
    valid := fun _ => ⟨by simp [hhaspl], h.start (by decide), hend, hentries, by rw [htoff, hpl]; rfl,
      by rw [htoff, htlen]; exact Nat.add_sub_cancel' htail⟩ }

theorem envelopeDone_stage (h : EnvelopeStage 9 s) : (envelopeDone s).Ensures EnvelopeInv EnvelopeInv True := by
  rw [envelopeDone_eq]
  split
  · exact flagMismatch_ensures (h.finished.reported _ _ _ _)
  · exact h.finished

theorem runAll_envelopeStates_inv (hc : s.cfg.legal) :
    (runAll envelopeStates s.envelopeClear).Ensures EnvelopeInv EnvelopeInv True :=
  runAll_cons_ensures (envelopeStart_stage (.clear hc)) fun _ h1 =>
  runAll_cons_ensures (envelopeLength_stage h1) fun _ h2 =>
  runAll_cons_ensures (envelopeControl_stage h2) fun _ h3 =>
  runAll_cons_ensures (envelopeCounter_stage h3) fun _ h4 =>
  runAll_cons_ensures (envelopeSerial_stage h4) fun _ h5 =>
  runAll_cons_ensures (envelopeData_stage h5) fun _ h6 =>
  runAll_cons_ensures (envelopePayload_stage h6) fun _ h7 =>
  runAll_cons_ensures (envelopeChecksum_stage h7) fun _ h8 =>
  runAll_cons_ensures (envelopeEnd_stage h8) fun _ h9 =>
  runAll_cons_ensures (envelopeDone_stage h9) fun _ h => h

/-- Whatever the input holds, `EP.RUN` leaves the envelope's registers in order: it clears them first. -/
theorem execEpRun_envelopeInv (hc : s.cfg.legal) {t : State} (ht : execEpRun s = .next t) : EnvelopeInv t :=
  (runAll_envelopeStates_inv hc).of_finish (fun _ h => h.withOutcome .ok) ht

end

end Sys2Proof.Machine

namespace Sys2Proof.Machine

/-! ### The Modbus parses (R191 to R204) -/

section
variable {s : State}

/-- What holds of the state inside a Modbus parse: its span lies in the input (R191). -/
structure ModbusStage (s : State) : Prop where
  legal : s.cfg.legal
  inv : ModbusInv s
  notValid : s.flag .mValid = false
  inSpan : s.mBase.toNat + s.mSlen.toNat ≤ s.ilen.toNat

theorem ModbusInv.reported (h : ModbusInv s) (e : ErrorName) (pos ent : Nat) (o : CommandOutcome) :
    ModbusInv (s.reported e pos ent o) := ⟨h.wf, h.fits, h.range, h.registersFit, h.valid⟩

theorem ModbusInv.withOutcome (h : ModbusInv s) (o : CommandOutcome) : ModbusInv (s.withOutcome o) :=
  ⟨h.wf, h.fits, h.range, h.registersFit, h.valid⟩

theorem ModbusState.code_le (st : ModbusState) : st.code.toNat ≤ 7 := by cases st <;> decide

/-- A parse begins (R191). -/
theorem ModbusStage.opened (hc : s.cfg.legal) {src : Byte}
    (hspan : (s.spanBase src).toNat + (s.spanLength src).toNat ≤ s.ilen.toNat) (isResponse : Bool) :
    ModbusStage (s.modbusOpened isResponse src) := by
  have hf : (s.modbusOpened isResponse src).flag .mValid = false := by
    show (s.openSpan isResponse _ _).flag .mValid = false
    simp
  exact {
    legal := hc
    inv :=
      { wf := rfl
        fits := rfl
        range := (by decide : 1 ≤ 7)
        registersFit := Nat.zero_le _
        valid := fun hv => absurd (hf.symm.trans hv) Bool.false_ne_true }
    notValid := hf
    inSpan := hspan }

/-- The span that a selector selects lies in the input (R178, R191). -/
theorem span_in_input (he : EnvelopeInv s) {src : Byte} (hsrc : (src = 0 ∧ s.flag .eHaspl = true) ∨ src = 1) :
    (s.spanBase src).toNat + (s.spanLength src).toNat ≤ s.ilen.toNat := by
  rcases hsrc with ⟨rfl, hf⟩ | rfl
  · exact (he.payloadFits hf).2.2.1
  · simp [State.spanBase, State.spanLength]

theorem modbusStart_stage (hc : s.cfg.legal) (he : EnvelopeInv s) (hm : ModbusInv s) (op src : Byte)
    (isResponse : Bool) : (modbusStart op src isResponse s).Ensures ModbusStage ModbusInv False := by
  rcases modbusStart_cases s op src isResponse with ⟨hsrc, e⟩ | ⟨-, -, e⟩ | ⟨-, -, e⟩ <;> rw [e]
  · exact .opened hc (span_in_input he hsrc) isResponse
  · exact raise_ensures (hm.reported _ _ _ _)
  · exact raise_ensures (hm.reported _ _ _ _)

/-- The parser's read does not stop the model: the span lies in the input. -/
theorem ModbusStage.read_ensures (h : ModbusStage s) {pos n ent : Nat} {e : ErrorName} {next : List Byte → Run}
    {goes : State → Prop} (hn : ∀ bytes, (next bytes).Ensures goes ModbusInv False) :
    (mtake s pos n ent e next).Ensures goes ModbusInv False :=
  mtake_ensures (fun hl => absurd h.inSpan (Nat.not_le.2 hl)) (fun _ => h.inv.reported _ _ _ _) fun _ _ => hn _

/-- The parser moves on with another entry decoded. -/
theorem ModbusStage.entry (h : ModbusStage s) (st : ModbusState) {fc start count : Half} {len ent : Byte} :
    ModbusStage { s with
      mFc := fc, mStart := start, mCount := count, mLen := len, mNent := ent, mState := st.code } where
  legal := h.legal
  inv :=
    { wf := h.inv.wf
      fits := h.inv.fits
      range := st.code_le
      registersFit := h.inv.registersFit
      valid := fun hv => absurd (h.notValid.symm.trans hv) Bool.false_ne_true }
  notValid := h.notValid
  inSpan := h.inSpan

/-- A register of the catalog is stored (R199). -/
theorem ModbusStage.register (h : ModbusStage s) {i : Nat} (hi : i < s.cfg.catalogRegs) (v : Half) {ent : Byte} :
    ModbusStage { s with mReg := Mem.write s.mReg i v, mNreg := BitVec.ofNat 8 (i + 1), mNent := ent } where
  legal := h.legal
  inv :=
    { wf := Mem.wf_write _ _ _ h.inv.wf
      fits := Mem.below_write _ _ _ _ h.inv.fits hi
      range := h.inv.range
      registersFit := Nat.le_trans (Nat.mod_le _ _) hi
      valid := fun hv => absurd (h.notValid.symm.trans hv) Bool.false_ne_true }
  notValid := h.notValid
  inSpan := h.inSpan

/-- The CRC field lies in the span, so what follows it is the trailing span (R201, R204). -/
theorem ModbusStage.finished (h : ModbusStage s) {pos : Nat} (hpos : pos + 2 ≤ s.mSlen.toNat) (ent : Nat) :
    ModbusInv (s.modbusFinished pos ent) := by
  have hslen := s.mSlen.isLt
  have htoff : (s.modbusFinished pos ent).mToff.toNat = pos + 2 := Nat.mod_eq_of_lt (by omega)
  have htlen : (s.modbusFinished pos ent).mTlen.toNat = s.mSlen.toNat - (pos + 2) := Nat.mod_eq_of_lt (by omega)
  exact {
    wf := h.inv.wf
    fits := h.inv.fits
    range := Nat.le_refl 7
    registersFit := h.inv.registersFit
    valid := fun _ => ⟨rfl, by rw [htoff, htlen]; exact Nat.add_sub_cancel' hpos, h.inSpan⟩ }

theorem modbusCrc_stage (h : ModbusStage s) (pos ent : Nat) :
    (modbusCrc pos ent s).Ensures ModbusInv ModbusInv False := by
  rcases Nat.lt_or_ge s.mSlen.toNat (pos + 2) with hshort | hwhole
  · rw [modbusCrc_short hshort]
    exact raise_ensures (h.inv.reported _ _ _ _)
  have hspan := h.inSpan
  rw [modbusCrc_whole hwhole (by omega)]
  split
  · exact h.finished hwhole ent
  · exact flagMismatch_ensures ((h.finished hwhole ent).reported _ _ _ _)

theorem responseTable_stage (h : ModbusStage s) {left i : Nat} (hi : i + left ≤ s.cfg.catalogRegs) :
    (responseTable left i s).Ensures ModbusStage ModbusInv False := by
  induction left generalizing i s with
  | zero => exact h
  | succ left ih =>
    exact h.read_ensures fun bytes => ih (h.register (by omega) _) (by show _ ≤ s.cfg.catalogRegs; omega)

theorem responsePayload_stage (h : ModbusStage s) : (responsePayload s).Ensures ModbusInv ModbusInv False :=
  andThen_ensures (responseTable_stage h (Nat.zero_add _).le) fun _ ht => modbusCrc_stage (ht.entry .expectCrc) _ _

theorem responseLength_stage (h : ModbusStage s) : (responseLength s).Ensures ModbusInv ModbusInv False := by
  refine h.read_ensures fun b => ?_
  dsimp only
  split
  · exact responsePayload_stage (h.entry .expectPayload)
  · exact modbusCrc_stage (h.entry .expectCrc) _ _

theorem responseFunctionCode_stage (h : ModbusStage s) :
    (responseFunctionCode s).Ensures ModbusInv ModbusInv False := by
  refine h.read_ensures fun b => ?_
  dsimp only
  split
  · exact responseLength_stage (h.entry .expectLength)
  · exact modbusCrc_stage (h.entry .expectCrc) _ _

/-- `MP.RSP` always ends, and leaves the Modbus registers in order. -/
theorem execMpRsp_answers (hc : s.cfg.legal) (he : EnvelopeInv s) (hm : ModbusInv s) (a : Byte) :
    Answers ModbusInv (execMpRsp a s) :=
  (andThen_ensures (modbusStart_stage hc he hm 0x32 a true) fun _ => responseFunctionCode_stage).answers
    fun _ h => h.withOutcome .ok

/-- `MP.CMD` always ends, and leaves the Modbus registers in order. -/
theorem execMpCmd_answers (hc : s.cfg.legal) (he : EnvelopeInv s) (hm : ModbusInv s) (a : Byte) :
    Answers ModbusInv (execMpCmd a s) := by
  have hcode := andThen_ensures (modbusStart_stage hc he hm 0x31 a false) (f := requestFunctionCode) fun _ h =>
    h.read_ensures fun _ => h.entry .expectStart
  have hstart := andThen_ensures hcode (f := requestStart) fun _ h => h.read_ensures fun _ => h.entry .expectCount
  have hcount := andThen_ensures hstart (f := requestCount) fun _ h => h.read_ensures fun _ => h.entry .expectCrc
  exact (andThen_ensures hcount fun _ h => modbusCrc_stage h 6 3).answers fun _ h => h.withOutcome .ok

end

/-! ### Every command keeps every unit's invariant -/

section
variable {i : Instr} {s t : State} (hw : isWireRow i = false) (hi : i ≠ .reset) (h : MachineInv s)
  (ht : exec i s = .next t)
include hw hi h ht

theorem exec_errRange : t.err.toNat ≤ 7 := by
  rcases record_written ht hi with ⟨e, -, -⟩ | ⟨-, e, -, -⟩ | ⟨e, -, he⟩ | ⟨-, e, -⟩ | hwire
  · exact e ▸ h.errRange
  · rw [e]; decide
  · rw [he]; cases e <;> decide
  · rw [e]; decide
  · exact absurd (hw.symm.trans hwire) Bool.false_ne_true

theorem exec_inputInv : InputInv t := by
  obtain ⟨-, -, hs, -, -, -⟩ := (machineInv_iff s).1 h
  have hk := exec_writes i s t ht
  cases i with
  | reset => exact absurd rfl hi
  | ibClr => cases ht; exact ⟨hs.wf, hs.fits, Nat.zero_le _⟩
  | ibLoad data => exact hs.ibLoad ht
  | wireEnvelopeFrame | wireModbusRequest | wireModbusResponseAck | wireModbusResponseEmptyRead
  | wireModbusResponseRead => cases hw
  | _ => exact hs.of_kept hk.cfg (hk.parts .ibuf) (hk.parts .ilen)

theorem exec_outputInv : OutputInv t := by
  obtain ⟨hc, -, -, hs, -, -⟩ := (machineInv_iff s).1 h
  have hk := exec_writes i s t ht
  cases i with
  | reset => exact absurd rfl hi
  | envBuild a => exact hs.envBuild hc ht
  | mbReq a b c => exact hs.mbReq ht
  | _ =>
    exact hs.of_kept hk.cfg (hk.parts .pbuf) (hk.parts .obuf) (hk.parts .olen) (hk.parts (.flag .obValid))
      (hk.parts (.flag .pbValid))

theorem exec_envelopeInv : EnvelopeInv t := by
  obtain ⟨hc, -, -, -, hs, -⟩ := (machineInv_iff s).1 h
  have hk := exec_writes i s t ht
  cases i with
  | reset => exact absurd rfl hi
  | ibClr => cases ht; exact hs.stale s.ibuf 0
  | ibLoad data => exact hs.ibLoad ht
  | epRun => exact execEpRun_envelopeInv hc ht
  | wireEnvelopeFrame | wireModbusRequest | wireModbusResponseAck | wireModbusResponseEmptyRead
  | wireModbusResponseRead => cases hw
  | _ =>
    exact hs.of_kept hk.cfg (hk.parts .ilen) (hk.parts .eData) (hk.parts .envelope) (hk.parts (.flag .eHaspl))
      (hk.parts (.flag .eValid))

theorem exec_modbusInv : ModbusInv t := by
  obtain ⟨hc, -, -, -, he, hs⟩ := (machineInv_iff s).1 h
  have hk := exec_writes i s t ht
  cases i with
  | reset => exact absurd rfl hi
  | ibClr => cases ht; exact hs.stale s.ibuf 0
  | ibLoad data => exact hs.ibLoad ht
  | mpCmd a => exact (execMpCmd_answers hc he hs a).of_next ht
  | mpRsp a => exact (execMpRsp_answers hc he hs a).of_next ht
  | wireEnvelopeFrame | wireModbusRequest | wireModbusResponseAck | wireModbusResponseEmptyRead
  | wireModbusResponseRead => cases hw
  | _ =>
    exact hs.of_kept hk.cfg (hk.parts .ilen) (hk.parts .mReg) (hk.parts .modbus) (hk.parts .response)
      (hk.parts (.flag .mValid))

end

section
variable {s t : State}

/-- Only the parameters of the state before it stand after a reset (R261). -/
theorem MachineInv.resetAll (h : MachineInv s) : MachineInv s.resetAll :=
  { machineInv_reset h.cfgLegal with }

theorem MachineInv.withOutcome (h : MachineInv s) (o : CommandOutcome) : MachineInv (s.withOutcome o) :=
  { h with }

theorem MachineInv.withPending (h : MachineInv s) (queue : List HostInput) : MachineInv (s.withPending queue) :=
  { h with }

/-- A single command keeps the invariant. -/
theorem MachineInv.after_command {i : Instr} (hw : isWireRow i = false) (h : MachineInv s) (ht : exec i s = .next t) :
    MachineInv t := by
  by_cases hi : i = .reset
  · subst hi
    cases ht
    exact h.resetAll.withOutcome .ok
  · exact (machineInv_iff t).2 ⟨(exec_writes i s t ht).cfg ▸ h.cfgLegal, exec_errRange hw hi h ht,
      exec_inputInv hw hi h ht, exec_outputInv hw hi h ht, exec_envelopeInv hw hi h ht, exec_modbusInv hw hi h ht⟩

/-- A sequence of commands keeps the invariant. -/
theorem MachineInv.after_runSeq {is : List Instr} (hw : ∀ i ∈ is, isWireRow i = false) (h : MachineInv s)
    (ht : runSeq is s = .next t) : MachineInv t := by
  induction is generalizing s with
  | nil => cases ht; exact h
  | cons i rest ih =>
    obtain ⟨hwi, hrest⟩ := List.forall_mem_cons.1 hw
    obtain ⟨u, hu, hr⟩ := afterNext_eq_next_iff.1 ht
    exact ih hrest (h.after_command hwi hu) hr

/-- A message is `IB.CLR`, the loads and one parser (R102, R263). -/
theorem MachineInv.after_message (h : MachineInv s) {bytes : List Byte} {last : Instr} (hlast : isWireRow last = false)
    (ht : afterNext (setInput bytes s) (exec last) = .next t) : MachineInv t := by
  rw [setInput_eq_runSeq] at ht
  refine h.after_runSeq (fun i hmem => ?_) ht
  simp only [List.cons_append, List.mem_cons, List.mem_append, List.mem_map, List.not_mem_nil, or_false] at hmem
  rcases hmem with rfl | ⟨d, -, rfl⟩ | rfl
  · rfl
  · rfl
  · exact hlast

theorem MachineInv.after_handOver (h : MachineInv s) {kind : MessageKind} {bytes : List Byte}
    (ht : handOver kind bytes s = .next t) : MachineInv t := by
  cases kind with
  | frame => exact h.after_message (last := .epRun) rfl ht
  | request => exact h.after_message (last := .mpCmd 1) rfl ht
  | response => exact h.after_message (last := .mpRsp 1) rfl ht

theorem MachineInv.after_exec {i : Instr} (h : MachineInv s) (ht : exec i s = .next t) : MachineInv t := by
  cases hw : isWireRow i with
  | false => exact h.after_command hw ht
  | true =>
    obtain ⟨kind, he⟩ := exec_wireRow hw s
    exact h.after_handOver (he ▸ ht)

/-- What does not decode keeps the invariant too (R94, R260; log entry 7). -/
theorem MachineInv.after_serveOther (h : MachineInv s) {input : HostInput} (ht : serveOther input s = .next t) :
    MachineInv t := by
  cases input with
  | command bytes =>
    cases ht
    exact { h with errRange := (by decide : 6 ≤ 7) }
  | message kind bytes => exact h.after_handOver ht
  | resetInput =>
    cases ht
    exact h.resetAll

end

/-- Settles O51: whatever is queued, the step runs an instruction or serves an input that does not decode, and either
keeps the invariant of every unit. -/
theorem everyStepKeepsTheInvariant : Obligations.EveryStepKeepsTheInvariant := by
  intro s t h ht
  cases hp : s.pending with
  | nil =>
    rw [step_idle hp] at ht
    cases ht
    exact h
  | cons input queue =>
    have hq := h.withPending queue
    cases hd : decodeInput input with
    | ok i => exact hq.after_exec (step_decoded hp hd ▸ ht)
    | error why => exact hq.after_serveOther (step_other hp hd ▸ ht)

end Sys2Proof.Machine

namespace Sys2Proof

/-! ## Fields of byte strings (R10, R11) -/

/-- A part of a byte string and what follows it. -/
theorem slice_append_drop (s : List Byte) (i : Nat) {n j : Nat} (h : i + n = j) : slice s i n ++ s.drop j = s.drop i := by
  rw [slice, ← h, ← List.drop_drop, List.take_append_drop]

theorem length_slice {s : List Byte} {i n : Nat} (h : i + n ≤ s.length) : (slice s i n).length = n := by
  rw [slice, List.length_take, List.length_drop]
  omega

/-- A byte of a string and what follows it. -/
theorem byteAt_cons_drop {s : List Byte} {i : Nat} (h : i < s.length) : byteAt s i :: s.drop (i + 1) = s.drop i := by
  rw [byteAt, List.getD_eq_getElem s 0 h, ← List.drop_eq_getElem_cons h]

/-- A byte some way past an offset. -/
theorem byteAt_drop (s : List Byte) (i j : Nat) : byteAt (s.drop i) j = byteAt s (i + j) := by
  rw [byteAt, byteAt, List.getD_eq_getElem?_getD, List.getD_eq_getElem?_getD, List.getElem?_drop]

/-- Two bytes are the encoding of the word they are read as, most significant first. -/
theorem be16_ofBE16_of_length {s : List Byte} (h : s.length = 2) : be16 (ofBE16 s) = s := by
  obtain ⟨a, b, rfl⟩ := List.length_eq_two.1 h
  exact be16_ofBE16 a b []

theorem le16_ofLE16_of_length {s : List Byte} (h : s.length = 2) : le16 (ofLE16 s) = s := by
  obtain ⟨a, b, rfl⟩ := List.length_eq_two.1 h
  exact le16_ofLE16 a b []

theorem exists_of_length_four {s : List Byte} (h : s.length = 4) : ∃ a b c d, s = [a, b, c, d] := by
  match s, h with
  | [a, b, c, d], _ => exact ⟨a, b, c, d, rfl⟩

theorem le32_ofLE32_of_length {s : List Byte} (h : s.length = 4) : le32 (ofLE32 s) = s := by
  obtain ⟨a, b, c, d, rfl⟩ := exists_of_length_four h
  exact le32_ofLE32 a b c d []

theorem be32_ofBE32_of_length {s : List Byte} (h : s.length = 4) : be32 (ofBE32 s) = s := by
  obtain ⟨a, b, c, d, rfl⟩ := exists_of_length_four h
  exact be32_ofBE32 a b c d []

/-- The bytes of the first `n` registers of a string are its first `2n` bytes (R99). -/
theorem tableBytes_tableOf {n : Nat} {s : List Byte} (h : 2 * n ≤ s.length) : tableBytes (tableOf n s) = s.take (2 * n) := by
  induction n generalizing s with
  | zero => rfl
  | succ n ih =>
    match s, h with
    | a :: b :: rest, h =>
      simp only [List.length_cons] at h
      rw [tableOf, tableBytes, be16_ofBE16, List.drop_succ_cons, List.drop_succ_cons, List.drop_zero, ih (by omega),
        show 2 * (n + 1) = 2 * n + 1 + 1 by omega, List.take_succ_cons, List.take_succ_cons]
      rfl

/-! ## The command formats (R91, R92): each accepts exactly its encodings -/

section
variable {op : Byte} {rest : List Byte} {j : Instr}

/-- What a format with operands of fixed width does: it reads them if the length is right. -/
theorem ite_ok_iff {c : Prop} [Decidable c] {i : Instr} {e : DecodeError} :
    (if c then Except.ok i else .error e) = .ok j ↔ c ∧ j = i := by
  split <;> simp_all [eq_comm]

theorem formatZ_eq_ok_iff {i : Instr} : formatZ op rest i = .ok j ↔ rest = [] ∧ j = i := by
  cases rest <;> simp [formatZ, eq_comm]

theorem formatB_eq_ok_iff {i : Byte → Instr} : formatB op rest i = .ok j ↔ ∃ a, rest = [a] ∧ j = i a := by
  match rest with
  | [] => simp [formatB]
  | [a] => simp [formatB, eq_comm]
  | _ :: _ :: _ => simp [formatB]

theorem formatSource_eq_ok_iff {i : Byte → Instr} :
    formatSource op rest i = .ok j ↔ ∃ a, sourceOk a = true ∧ rest = [a] ∧ j = i a := by
  match rest with
  | [] => simp [formatSource]
  | [a] => simp [formatSource, ite_ok_iff]
  | _ :: _ :: _ => simp [formatSource]

theorem formatH_eq_ok_iff {i : Half → Instr} : formatH op rest i = .ok j ↔ ∃ a, rest = be16 a ∧ j = i a := by
  rw [formatH, ite_ok_iff]
  constructor
  · rintro ⟨h, rfl⟩
    exact ⟨_, (be16_ofBE16_of_length h).symm, rfl⟩
  · rintro ⟨a, rfl, rfl⟩
    exact ⟨rfl, by rw [ofBE16_be16]⟩

theorem formatHH_eq_ok_iff {i : Half → Half → Instr} :
    formatHH op rest i = .ok j ↔ ∃ a b, rest = be16 a ++ be16 b ∧ j = i a b := by
  rw [formatHH, ite_ok_iff]
  constructor
  · rintro ⟨h, rfl⟩
    obtain ⟨a, b, c, d, rfl⟩ := exists_of_length_four h
    refine ⟨ofBE16 [a, b], ofBE16 [c, d], ?_, rfl⟩
    rw [be16_ofBE16, be16_ofBE16]
    rfl
  · rintro ⟨a, b, rfl, rfl⟩
    exact ⟨rfl, by rw [ofBE16_be16_append]; exact congrArg _ (ofBE16_be16 b).symm⟩

theorem formatW_eq_ok_iff {i : Word → Instr} : formatW op rest i = .ok j ↔ ∃ a, rest = be32 a ∧ j = i a := by
  rw [formatW, ite_ok_iff]
  constructor
  · rintro ⟨h, rfl⟩
    exact ⟨_, (be32_ofBE32_of_length h).symm, rfl⟩
  · rintro ⟨a, rfl, rfl⟩
    exact ⟨rfl, by rw [ofBE32_be32]⟩

theorem formatRW_eq_ok_iff {i : Byte → Word → Instr} :
    formatRW op rest i = .ok j ↔ ∃ r v, rest = r :: be32 v ∧ j = i r v := by
  rw [formatRW, ite_ok_iff]
  constructor
  · rintro ⟨h, rfl⟩
    match rest, h with
    | [r, a, b, c, d], _ => exact ⟨r, _, congrArg _ (be32_ofBE32 a b c d []).symm, rfl⟩
  · rintro ⟨r, v, rfl, rfl⟩
    exact ⟨rfl, congrArg _ (ofBE32_be32 v).symm⟩

theorem formatQ_eq_ok_iff {i : Half → Half → Half → Instr} :
    formatQ op rest i = .ok j ↔ ∃ a b c, rest = be16 a ++ be16 b ++ be16 c ∧ j = i a b c := by
  rw [formatQ, ite_ok_iff]
  constructor
  · rintro ⟨h, rfl⟩
    match rest, h with
    | [a, b, c, d, e, f], _ =>
      refine ⟨ofBE16 [a, b], ofBE16 [c, d], ofBE16 [e, f], ?_, rfl⟩
      rw [be16_ofBE16, be16_ofBE16, be16_ofBE16]
      rfl
  · rintro ⟨a, b, c, rfl, rfl⟩
    refine ⟨rfl, ?_⟩
    show i a b c = i (ofBE16 (be16 a)) (ofBE16 (be16 b)) (ofBE16 (be16 c))
    rw [ofBE16_be16, ofBE16_be16, ofBE16_be16]

theorem formatV_eq_ok_iff {i : List Byte → Instr} :
    formatV op rest i = .ok j ↔
      ∃ data, loadOk data = true ∧ rest = BitVec.ofNat 8 data.length :: data ∧ j = i data := by
  cases rest with
  | nil => simp [formatV]
  | cons n data =>
    rw [formatV, ite_ok_iff]
    constructor
    · rintro ⟨h, rfl⟩
      exact ⟨data, by simp [h]; have := n.isLt; omega, by rw [h, BitVec.ofNat_toNat, BitVec.setWidth_eq], rfl⟩
    · rintro ⟨d, hd, h, rfl⟩
      obtain ⟨rfl, rfl⟩ := List.cons.inj h
      refine ⟨?_, rfl⟩
      rw [BitVec.toNat_ofNat, Nat.mod_eq_of_lt (Nat.lt_succ_of_le (of_decide_eq_true hd))]

end

/-! ## The decoder of commands (R93, R94, R96) -/

/-- What the decoder gives is well-formed, and its encoding is the string it was given: the branches of the opcode map,
`h_1` to `h_26` in the order of R93, are taken together by their format. -/
theorem present_of_decode {s : List Byte} {i : Instr} (h : decode s = .ok i) :
    i.wellFormed = true ∧ present i = .command s := by
  cases s with
  | nil => cases h
  | cons op rest =>
    obtain ⟨n, hn, rfl⟩ : ∃ n, n < 256 ∧ op = BitVec.ofNat 8 n := ⟨op.toNat, op.isLt, by simp⟩
    rw [decode, BitVec.toNat_ofNat, Nat.mod_eq_of_lt hn] at h
    split at h
    case h_1 | h_2 | h_3 | h_6 | h_12 | h_15 | h_18 =>
      obtain ⟨rfl, rfl⟩ := formatZ_eq_ok_iff.1 h
      exact ⟨rfl, rfl⟩
    case h_4 | h_10 | h_11 | h_13 | h_16 | h_23 | h_24 | h_25 =>
      obtain ⟨a, rfl, rfl⟩ := formatB_eq_ok_iff.1 h
      exact ⟨rfl, rfl⟩
    case h_21 | h_22 =>
      obtain ⟨a, ha, rfl, rfl⟩ := formatSource_eq_ok_iff.1 h
      exact ⟨ha, rfl⟩
    case h_8 | h_9 =>
      obtain ⟨a, rfl, rfl⟩ := formatH_eq_ok_iff.1 h
      exact ⟨rfl, rfl⟩
    case h_14 | h_17 =>
      obtain ⟨a, b, rfl, rfl⟩ := formatHH_eq_ok_iff.1 h
      exact ⟨rfl, rfl⟩
    case h_19 =>
      obtain ⟨a, rfl, rfl⟩ := formatW_eq_ok_iff.1 h
      exact ⟨rfl, rfl⟩
    case h_5 =>
      obtain ⟨r, v, rfl, rfl⟩ := formatRW_eq_ok_iff.1 h
      exact ⟨rfl, rfl⟩
    case h_20 =>
      obtain ⟨a, b, c, rfl, rfl⟩ := formatQ_eq_ok_iff.1 h
      exact ⟨rfl, rfl⟩
    case h_7 =>
      obtain ⟨data, hd, rfl, rfl⟩ := formatV_eq_ok_iff.1 h
      exact ⟨hd, rfl⟩
    case h_26 => cases h

/-- A well-formed command is what its encoding decodes to. -/
theorem decode_encode {i : Instr} (hc : present i = .command (encode i)) (hw : i.wellFormed = true) :
    decode (encode i) = .ok i := by
  cases i with
  | nop | reset | clrerr | ibClr | crcInit | sumInit | epRun => rfl
  | rd | rdp | rdd | crcUpd | sumUpd | fxU16 | fxS16 | fxD32 => rfl
  | mpCmd a | mpRsp a => exact formatSource_eq_ok_iff.2 ⟨a, hw, rfl, rfl⟩
  | rdi a | rdo a => exact formatH_eq_ok_iff.2 ⟨a, rfl, rfl⟩
  | crcBuf a b | sumBuf a b => exact formatHH_eq_ok_iff.2 ⟨a, b, rfl, rfl⟩
  | envBuild a => exact formatW_eq_ok_iff.2 ⟨a, rfl, rfl⟩
  | wr r v => exact formatRW_eq_ok_iff.2 ⟨r, v, rfl, rfl⟩
  | mbReq a b c => exact formatQ_eq_ok_iff.2 ⟨a, b, c, rfl, rfl⟩
  | ibLoad data => exact formatV_eq_ok_iff.2 ⟨data, hw, rfl, rfl⟩
  | _ => cases hc

/-- Settles O49: the opcode map has no branch for such an opcode. -/
theorem unlistedOpcodesAreReserved : Obligations.UnlistedOpcodesAreReserved := by
  intro op rest h
  rw [decode]
  split
  case h_26 => rfl
  all_goals
    rename_i hop
    rw [hop] at h
    exact absurd (by decide) h

/-! ## The wire formats (R97 to R100): each reads exactly its messages -/

section
variable {s : List Byte} {i : Instr}

/-- The last two bytes of a byte string. -/
theorem drop_length_sub_two (h : 2 ≤ s.length) :
    s.drop (s.length - 2) = [byteAt s (s.length - 2), byteAt s (s.length - 1)] := by
  rw [← byteAt_cons_drop (by omega : s.length - 2 < s.length), show s.length - 2 + 1 = s.length - 1 by omega,
    ← byteAt_cons_drop (by omega : s.length - 1 < s.length), show s.length - 1 + 1 = s.length by omega, List.drop_length]

/-- A string that ends in a little-endian word (R98, R99). -/
theorem le16_ofLE16_at_end {k : Nat} (h : k + 2 = s.length) : le16 (ofLE16 (slice s k 2)) = s.drop k := by
  rw [le16_ofLE16_of_length (length_slice (by omega)), ← slice_append_drop s k h, List.drop_length, List.append_nil]

/-- A frame is its fields in wire order (R97). -/
theorem present_of_decodeFrame (h : decodeFrame s = .ok i) : i.wellFormed = true ∧ present i = .message .frame s := by
  rw [decodeFrame] at h
  split at h
  · cases h
  rename_i hstart
  split at h
  · cases h
  rename_i hlen
  cases h
  refine ⟨decide_eq_true (length_slice (by omega)), congrArg (HostInput.message .frame) ?_⟩
  calc startDelim :: (le16 (ofLE16 (slice s 1 2)) ++ be16 (ofBE16 (slice s 3 2)) ++ be16 (ofBE16 (slice s 5 2)) ++
        le32 (ofLE32 (slice s 7 4)) ++ slice s 11 15 ++ slice s 26 (s.length - 28) ++
        [byteAt s (s.length - 2), byteAt s (s.length - 1)])
      = byteAt s 0 :: (slice s 1 2 ++ slice s 3 2 ++ slice s 5 2 ++ slice s 7 4 ++ slice s 11 15 ++
          slice s 26 (s.length - 28) ++ s.drop (s.length - 2)) := by
        rw [le16_ofLE16_of_length (length_slice (by omega)), be16_ofBE16_of_length (length_slice (by omega)),
          be16_ofBE16_of_length (length_slice (by omega)), le32_ofLE32_of_length (length_slice (by omega)),
          drop_length_sub_two (by omega), not_not.1 hstart]
    _ = byteAt s 0 :: s.drop 1 := by
        simp only [List.append_assoc]
        rw [slice_append_drop s 26 (by omega), slice_append_drop s 11 rfl, slice_append_drop s 7 rfl,
          slice_append_drop s 5 rfl, slice_append_drop s 3 rfl, slice_append_drop s 1 rfl]
    _ = s := byteAt_cons_drop (by omega)

/-- A request is its fields in wire order (R98). -/
theorem present_of_decodeRequest (h : decodeRequest s = .ok i) :
    i.wellFormed = true ∧ present i = .message .request s := by
  obtain ⟨hlen, rfl⟩ := ite_ok_iff.1 h
  refine ⟨rfl, congrArg (HostInput.message .request) ?_⟩
  show be16 (ofBE16 (slice s 0 2)) ++ be16 (ofBE16 (slice s 2 2)) ++ be16 (ofBE16 (slice s 4 2)) ++
    le16 (ofLE16 (slice s 6 2)) = s
  rw [be16_ofBE16_of_length (length_slice (by omega)), be16_ofBE16_of_length (length_slice (by omega)),
    be16_ofBE16_of_length (length_slice (by omega)), le16_ofLE16_at_end (by omega), List.append_assoc, List.append_assoc,
    slice_append_drop s 4 rfl, slice_append_drop s 2 rfl, slice_append_drop s 0 rfl, List.drop_zero]

/-- A response is the fields of its shape in wire order (R99, R100). -/
theorem present_of_decodeResponse (h : decodeResponse s = .ok i) :
    i.wellFormed = true ∧ present i = .message .response s := by
  rw [decodeResponse] at h
  split at h
  · cases h
  have hcode : be16 (ofBE16 (slice s 0 2)) = slice s 0 2 := be16_ofBE16_of_length (length_slice (by omega))
  split at h
  case isTrue hack =>
    obtain ⟨hlen, rfl⟩ := ite_ok_iff.1 h
    refine ⟨bne_iff_ne.2 hack, congrArg (HostInput.message .response) ?_⟩
    show be16 (ofBE16 (slice s 0 2)) ++ le16 (ofLE16 (slice s 2 2)) = s
    rw [hcode, le16_ofLE16_at_end hlen.symm, slice_append_drop s 0 rfl, List.drop_zero]
  case isFalse hread =>
  rw [not_not.1 hread] at hcode
  split at h
  case isTrue hempty =>
    obtain ⟨hlen, rfl⟩ := ite_ok_iff.1 h
    refine ⟨rfl, congrArg (HostInput.message .response) ?_⟩
    show be16 fcRead ++ [0] ++ le16 (ofLE16 (slice s 3 2)) = s
    rw [hcode, le16_ofLE16_at_end hlen.symm, List.append_assoc, List.singleton_append, ← hempty,
      byteAt_cons_drop (by omega), slice_append_drop s 0 rfl, List.drop_zero]
  case isFalse htable =>
    obtain ⟨⟨hlen, hmin, hmax⟩, rfl⟩ := ite_ok_iff.1 h
    generalize tableCount s.length = n at hlen hmin hmax
    refine ⟨?_, congrArg (HostInput.message .response) ?_⟩
    · simp only [Instr.wellFormed, Bool.and_eq_true, decide_eq_true_eq, length_tableOf]
      exact ⟨bne_iff_ne.2 htable, hmin, hmax⟩
    show be16 fcRead ++ [byteAt s 2] ++ tableBytes (tableOf n (s.drop 3)) ++ le16 (ofLE16 (slice s (s.length - 2) 2)) = s
    have hbytes : tableBytes (tableOf n (s.drop 3)) = slice s 3 (2 * n) :=
      tableBytes_tableOf (by rw [List.length_drop]; omega)
    rw [hcode, hbytes, le16_ofLE16_at_end (by omega), List.append_assoc, slice_append_drop s 3 (by omega),
      List.append_assoc, List.singleton_append, byteAt_cons_drop (by omega), slice_append_drop s 0 rfl, List.drop_zero]

end

/-- Settles O46: by the kind of input. -/
theorem encodeOfDecodeIsTheInput : Obligations.EncodeOfDecodeIsTheInput := by
  intro input i h
  match input with
  | .command _ => exact present_of_decode h
  | .message .frame _ => exact present_of_decodeFrame h
  | .message .request _ => exact present_of_decodeRequest h
  | .message .response _ => exact present_of_decodeResponse h
  | .resetInput => cases h

/-! What stands where in a frame (R97). -/

section
variable {frame data payload : List Byte} {length control counter : Half} {serial : Word} {checksum fin : Byte}
variable (hf : frame = encode (.wireEnvelopeFrame length control counter serial data payload checksum fin))
include hf

theorem slice_frame_header : slice frame 1 2 = le16 length ∧ slice frame 3 2 = be16 control ∧
    slice frame 5 2 = be16 counter ∧ slice frame 7 4 = le32 serial := by
  subst hf
  exact ⟨rfl, rfl, rfl, rfl⟩

theorem drop_frame_header : frame.drop 11 = data ++ payload ++ [checksum, fin] := by
  subst hf
  rfl

variable (hd : data.length = 15)
include hd

theorem length_frame : frame.length = 28 + payload.length := by
  subst hf
  exact Laws.EncodedLength.wireEnvelopeFrame length control counter serial data payload checksum fin (decide_eq_true hd)

theorem slice_frame_data : slice frame 11 15 = data := by
  rw [slice, drop_frame_header hf, List.append_assoc, ← hd, List.take_left]

theorem drop_frame_data : frame.drop 26 = payload ++ [checksum, fin] := by
  rw [show 26 = 11 + data.length by omega, ← List.drop_drop, drop_frame_header hf, List.append_assoc, List.drop_left]

theorem slice_frame_payload : slice frame 26 payload.length = payload := by
  rw [slice, drop_frame_data hf hd, List.take_left]

theorem drop_frame_payload : frame.drop (26 + payload.length) = [checksum, fin] := by
  rw [← List.drop_drop, drop_frame_data hf hd, List.drop_left]

theorem byteAt_frame_checksum : byteAt frame (26 + payload.length) = checksum := by
  rw [← Nat.add_zero (26 + payload.length), ← byteAt_drop, drop_frame_payload hf hd]
  rfl

theorem byteAt_frame_fin : byteAt frame (27 + payload.length) = fin := by
  rw [show 27 + payload.length = 26 + payload.length + 1 by omega, ← byteAt_drop, drop_frame_payload hf hd]
  rfl

/-- A frame is read back as its fields (R97). -/
theorem decodeFrame_encode :
    decodeFrame frame = .ok (.wireEnvelopeFrame length control counter serial data payload checksum fin) := by
  obtain ⟨hlength, hcontrol, hcounter, hserial⟩ := slice_frame_header hf
  have hl := length_frame hf hd
  have hstart : byteAt frame 0 = startDelim := by subst hf; rfl
  rw [decodeFrame, if_neg (not_not.2 hstart), if_neg (by omega), hlength, hcontrol, hcounter, hserial,
    slice_frame_data hf hd, hl, show 28 + payload.length - 28 = payload.length by omega,
    show 28 + payload.length - 2 = 26 + payload.length by omega,
    show 28 + payload.length - 1 = 27 + payload.length by omega, slice_frame_payload hf hd, byteAt_frame_checksum hf hd,
    byteAt_frame_fin hf hd, ofLE16_le16, ofBE16_be16, ofBE16_be16, ofLE32_le32]

end

/-- A request is read back as its fields (R98). -/
theorem decodeRequest_encode (functionCode startRegister count crc : Half) :
    decodeRequest (encode (.wireModbusRequest functionCode startRegister count crc)) =
      .ok (.wireModbusRequest functionCode startRegister count crc) := by
  refine ite_ok_iff.2 ⟨rfl, ?_⟩
  show _ = Instr.wireModbusRequest (ofBE16 (be16 functionCode)) (ofBE16 (be16 startRegister)) (ofBE16 (be16 count))
    (ofLE16 (le16 crc))
  rw [ofBE16_be16, ofBE16_be16, ofBE16_be16, ofLE16_le16]

/-- An acknowledgement is read back as its fields (R99, R100). -/
theorem decodeResponse_encode_ack {functionCode : Half} (h : functionCode ≠ fcRead) (crc : Half) :
    decodeResponse (encode (.wireModbusResponseAck functionCode crc)) = .ok (.wireModbusResponseAck functionCode crc) := by
  have hcode : ofBE16 (slice (encode (.wireModbusResponseAck functionCode crc)) 0 2) = functionCode :=
    ofBE16_be16 functionCode
  have hcrc : ofLE16 (slice (encode (.wireModbusResponseAck functionCode crc)) 2 2) = crc := ofLE16_le16 crc
  have hlen : (encode (.wireModbusResponseAck functionCode crc)).length = 4 := rfl
  rw [decodeResponse, hlen, if_neg (by omega), hcode, if_pos h, if_pos rfl, hcrc]

/-- An empty read is read back as its field (R99). -/
theorem decodeResponse_encode_emptyRead (crc : Half) :
    decodeResponse (encode (.wireModbusResponseEmptyRead crc)) = .ok (.wireModbusResponseEmptyRead crc) := by
  have hcode : ofBE16 (slice (encode (.wireModbusResponseEmptyRead crc)) 0 2) = fcRead := ofBE16_be16 fcRead
  have hcrc : ofLE16 (slice (encode (.wireModbusResponseEmptyRead crc)) 3 2) = crc := ofLE16_le16 crc
  have hbyte : byteAt (encode (.wireModbusResponseEmptyRead crc)) 2 = 0 := rfl
  have hlen : (encode (.wireModbusResponseEmptyRead crc)).length = 5 := rfl
  rw [decodeResponse, hlen, if_neg (by omega), if_neg (not_not.2 hcode), if_pos hbyte, if_pos rfl, hcrc]

/-! What stands where in a read response (R99). -/

section
variable {response : List Byte} {length : Byte} {table : List Half} {crc : Half}
variable (hr : response = encode (.wireModbusResponseRead length table crc))
include hr

theorem drop_response_length : response.drop 3 = tableBytes table ++ le16 crc := by
  subst hr
  rfl

theorem length_response : response.length = 5 + 2 * table.length := by
  subst hr
  simp [encode]
  omega

theorem slice_response_table : slice response 3 (2 * table.length) = tableBytes table := by
  rw [slice, drop_response_length hr, ← length_tableBytes, List.take_left]

theorem drop_response_table : response.drop (3 + 2 * table.length) = le16 crc := by
  rw [← List.drop_drop, drop_response_length hr, ← length_tableBytes, List.drop_left]

/-- A read response is read back as its fields (R99). -/
theorem decodeResponse_encode_read (hl : length ≠ 0) (hmin : 1 ≤ table.length) (hmax : table.length ≤ 127) :
    decodeResponse response = .ok (.wireModbusResponseRead length table crc) := by
  have hcode : ofBE16 (slice response 0 2) = fcRead := by subst hr; exact ofBE16_be16 fcRead
  have hbyte : byteAt response 2 = length := by subst hr; rfl
  have hcount : tableCount response.length = table.length := by rw [tableCount, length_response hr]; omega
  have hcrc : slice response (response.length - 2) 2 = le16 crc := by
    rw [slice, length_response hr, show 5 + 2 * table.length - 2 = 3 + 2 * table.length by omega, drop_response_table hr]
    rfl
  rw [decodeResponse, if_neg (by rw [length_response hr]; omega), if_neg (not_not.2 hcode), hbyte, if_neg hl, hcount,
    if_pos ⟨length_response hr, hmin, hmax⟩, drop_response_length hr, tableOf_tableBytes_append, hcrc, ofLE16_le16]

end

/-- Settles O45: a command by its format, a message by its wire format. -/
theorem decodeOfEncodeIsTheInstruction : Obligations.DecodeOfEncodeIsTheInstruction := by
  intro i h
  cases i with
  | wireEnvelopeFrame => exact decodeFrame_encode rfl (of_decide_eq_true h)
  | wireModbusRequest => exact decodeRequest_encode _ _ _ _
  | wireModbusResponseAck => exact decodeResponse_encode_ack (bne_iff_ne.1 h) _
  | wireModbusResponseEmptyRead => exact decodeResponse_encode_emptyRead _
  | wireModbusResponseRead length table crc =>
    simp only [Instr.wellFormed, Bool.and_eq_true, decide_eq_true_eq] at h
    obtain ⟨hl, hmin, hmax⟩ := h
    exact decodeResponse_encode_read rfl (bne_iff_ne.1 hl) hmin hmax
  | _ => exact decode_encode rfl h

end Sys2Proof

namespace Sys2Proof.Machine

/-! ## What a step runs (R94, R161, R228) -/

/-- Settles O44: each word but the refused ones is the encoding of its instruction. -/
theorem sampleWordsDecode : Obligations.SampleWordsDecode :=
  ⟨decode_encode (i := .nop) rfl rfl, decode_encode (i := .rd 0x07) rfl rfl,
    decode_encode (i := .wr 0x06 0x00001234) rfl rfl, decode_encode (i := .ibLoad [0xA5, 0x17, 0x00]) rfl rfl,
    decode_encode (i := .crcBuf 26 6) rfl rfl, decode_encode (i := .sumBuf 1 33) rfl rfl,
    decode_encode (i := .envBuild 3972135441) rfl rfl, decode_encode (i := .mbReq 0x0103 0x003C 0x0001) rfl rfl,
    decode_encode (i := .fxD32 2) rfl rfl, rfl, rfl, decodeResponse_encode_ack (functionCode := 0x0110) (by decide) 0xEC01,
    rfl⟩

/-- A parse is refused a selector above 1 before it clears anything (R94; log entry 12). -/
theorem modbusStart_badSource {a : Byte} (h : 1 < a.toNat) (op : Byte) (isResponse : Bool) (s : State) :
    modbusStart op a isResponse s = raise .illegalCommand 0 op.toNat s := by
  have h0 : a ≠ 0 := by rintro rfl; revert h; decide
  have h1 : a ≠ 1 := by rintro rfl; revert h; decide
  rw [modbusStart, selectSpan, if_neg h0, if_neg h1]
  rfl

/-- Settles O32: `formatSource` bounds the selector in the decoder, `selectSpan` in the parsers. -/
theorem selectorsAboveOneAreIllegal : Obligations.SelectorsAboveOneAreIllegal := by
  intro s a h
  have hsrc : ¬ sourceOk a = true := by simpa using h
  refine ⟨if_neg hsrc, if_neg hsrc, ?_, ?_⟩
  · show execMpCmd a s = _
    rw [execMpCmd, modbusStart_badSource h]
    rfl
  · show execMpRsp a s = _
    rw [execMpRsp, modbusStart_badSource h]
    rfl

/-- What a table word decodes to is what its host input decodes to. -/
theorem decodeTableWord_eq_some {nbits w : Nat} {i : Instr} (h : decodeTableWord nbits w = some i) :
    decodeInput (tableInput nbits w) = .ok i := by
  rw [decodeTableWord] at h
  split at h
  case h_1 hd => exact hd.trans (congrArg _ (Option.some.inj h))
  case h_2 => cases h

/-- Settles O47. -/
theorem stepRunsTheDecodedInstruction : Obligations.StepRunsTheDecodedInstruction :=
  ⟨fun _ _ _ _ hp hd => step_decoded hp hd, fun _ hp => step_idle hp,
    fun s _ _ _ h => step_decoded (s := s.withFetchWord _ _) (queue := s.pending) rfl (decodeTableWord_eq_some h)⟩

/-- Settles O48: a refused command is served by raising, over the rest of the queue. -/
theorem illegalCommandsChangeOnlyTheRecord : Obligations.IllegalCommandsChangeOnlyTheRecord := by
  intro s bytes queue why h
  have hfirst : firstByte bytes = bytes.headD 0 := by cases bytes <;> rfl
  rw [step_other (s := s.withPending (.command bytes :: queue)) (input := .command bytes) rfl h, ← hfirst]
  rfl

/-! ## A wire row is its message loaded, then parsed (R102, R263; log entry 7) -/

/-- The procedure of a wire row, by the parser of its kind. -/
theorem exec_wireRow_eq {i : Instr} (hw : isWireRow i = true) (s : State) :
    exec i s = afterNext (setInput (encode i) s) (exec (parserOf i)) := by
  cases i with
  | wireEnvelopeFrame | wireModbusRequest => rfl
  | wireModbusResponseAck | wireModbusResponseEmptyRead | wireModbusResponseRead => rfl
  | _ => cases hw

/-- Settles O40: the pieces are the chunks that `IB.SET` loads. -/
theorem wireRowsRunTheHostsProcedure : Obligations.WireRowsRunTheHostsProcedure := by
  intro i s hw
  exact ⟨chunks (encode i).length (encode i), chunks_flatten _ _ (Nat.le_refl _), chunks_bounds _ _,
    (exec_wireRow_eq hw s).trans (setInput_eq_runSeq _ _ _)⟩

/-- A message that fits the input buffer is parsed from the state in which the buffer holds exactly it. -/
theorem wireRow_loaded {i : Instr} {s : State} (hi : isWireRow i = true) (hw : Mem.wf s.ibuf = true)
    (hm : s.cfg.ibufMax ≤ 65535) (h : (encode i).length ≤ s.cfg.ibufMax) :
    (s.inputSet (encode i)).holdsInput (encode i) ∧ exec i s = exec (parserOf i) (s.inputSet (encode i)) :=
  ⟨inputSet_holdsInput hw (h.trans hm), by rw [exec_wireRow_eq hi, setInput_fits hm h, afterNext_next]⟩

section
variable {s : State} {bytes : List Byte} (h : s.holdsInput bytes)
include h

/-- A string of the input buffer, where the buffer holds this string. -/
theorem State.holdsInput.readRange_eq {pos n : Nat} (hn : pos + n ≤ bytes.length) :
    Mem.readRange s.ibuf pos n = slice bytes pos n := by
  rw [slice, ← h.2, Mem.readRange_slice _ _ _ _ _ hn, Nat.zero_add]

theorem State.holdsInput.of_kept {t : State} (hilen : t.ilen = s.ilen) (hibuf : t.ibuf = s.ibuf) : t.holdsInput bytes := by
  rwa [State.holdsInput, hilen, hibuf]

/-- A byte of the input buffer, where the buffer holds this string. -/
theorem State.holdsInput.read_eq {pos : Nat} (hn : pos < bytes.length) : Mem.read s.ibuf pos = byteAt bytes pos := by
  rw [byteAt, ← h.2, Mem.getD_readRange _ _ _ _ _ hn, Nat.zero_add]

end

end Sys2Proof.Machine

namespace Sys2Proof.Machine

/-- An element of an array that nothing else was written to. -/
theorem Mem.read_writeRange_empty {w : Nat} (vs : List (BitVec w)) {i : Nat} (h : i < vs.length) :
    Mem.read (Mem.writeRange [] 0 vs) i = vs[i] := by
  have hr := Mem.read_writeRange_same [] rfl 0 vs i 0 h
  rwa [Nat.zero_add, List.getD_eq_getElem vs 0 h] at hr

/-! ## How a parse that reaches its end is closed (R181, R193, R201) -/

/-- What the end of a parse leaves: if the check failed, the record of the deferred flag. -/
def State.closed (s : State) (bad : Bool) (pos ent : Nat) : State :=
  if bad then s.reported .checksumMismatch pos ent .okFlagged else s.withOutcome .ok

theorem flagMismatch_or_go_finish (s : State) (bad : Bool) (pos ent : Nat) :
    (if bad = true then flagMismatch pos ent s else .go s).finish = .next (s.closed bad pos ent) := by
  cases bad <;> rfl

theorem andThen_go_right (r : Run) : r.andThen .go = r := by cases r <;> rfl

/-! ## A frame that is there whole (R171 to R181) -/

/-- The state at the end of an envelope parse, before it is closed (R181). -/
def State.envelopeParsed (s : State) : State :=
  s.envelopeHeader.envelopeSpanned.envelopeChecked.envelopeEnded.envelopeFinished

/-- `EP.RUN` on a buffer that begins with a whole frame (R172 to R181). -/
theorem execEpRun_parsed {s : State} (hstart : Mem.read s.ibuf 0 = startDelim)
    (hbias : s.cfg.lenBias ≤ s.envelopeHeader.eLen.toNat)
    (hlen : s.cfg.payloadOffset + s.envelopeHeader.payloadLen + 2 ≤ s.ilen.toNat)
    (hend : Mem.read s.ibuf (s.cfg.payloadOffset + 1 + s.envelopeHeader.payloadLen) = endDelim) :
    exec .epRun s = .next (s.envelopeParsed.closed (s.envelopeParsed.flag .chkBad)
      (s.cfg.payloadOffset + s.envelopeHeader.payloadLen) 7) := by
  rw [execEpRun_header (by omega) hstart, envelopePayload_go (s := s.envelopeHeader) hbias (by simp; omega), andThen_go,
    envelopeChecksum_go (by simp; omega), andThen_go,
    envelopeEnd_go (s := s.envelopeHeader.envelopeSpanned.envelopeChecked) (by simp; omega) (by simpa using hend),
    andThen_go, andThen_go_right, envelopeDone_eq, flagMismatch_or_go_finish]
  simp only [State.envelopeParsed, envelopeEnded_cfg, envelopeChecked_cfg, envelopeSpanned_cfg, envelopeHeader_cfg,
    envelopeEnded_payloadLen, envelopeChecked_payloadLen, envelopeSpanned_payloadLen]

section
variable (s : State)

@[simp] theorem envelopeParsed_ilen : s.envelopeParsed.ilen = s.ilen := by simp [State.envelopeParsed]
@[simp] theorem envelopeParsed_ibuf : s.envelopeParsed.ibuf = s.ibuf := by simp [State.envelopeParsed]
@[simp] theorem envelopeParsed_eLen : s.envelopeParsed.eLen = s.envelopeHeader.eLen := by simp [State.envelopeParsed]
@[simp] theorem envelopeParsed_eCtrl : s.envelopeParsed.eCtrl = s.envelopeHeader.eCtrl := by simp [State.envelopeParsed]
@[simp] theorem envelopeParsed_eCnt : s.envelopeParsed.eCnt = s.envelopeHeader.eCnt := by simp [State.envelopeParsed]
@[simp] theorem envelopeParsed_eSer : s.envelopeParsed.eSer = s.envelopeHeader.eSer := by simp [State.envelopeParsed]
@[simp] theorem envelopeParsed_eData : s.envelopeParsed.eData = s.envelopeHeader.eData := by simp [State.envelopeParsed]
@[simp] theorem envelopeParsed_ePoff : s.envelopeParsed.ePoff = BitVec.ofNat 16 s.cfg.payloadOffset := by
  simp [State.envelopeParsed]
@[simp] theorem envelopeParsed_ePlen : s.envelopeParsed.ePlen = BitVec.ofNat 16 s.envelopeHeader.payloadLen := by
  simp [State.envelopeParsed]
@[simp] theorem envelopeParsed_eChk :
    s.envelopeParsed.eChk = Mem.read s.ibuf (s.cfg.payloadOffset + s.envelopeHeader.payloadLen) := by
  simp [State.envelopeParsed]
@[simp] theorem envelopeParsed_eTlen : s.envelopeParsed.eTlen =
    BitVec.ofNat 16 (s.ilen.toNat - (s.cfg.payloadOffset + 2 + s.envelopeHeader.payloadLen)) := by
  simp [State.envelopeParsed]

theorem flag_envelopeParsed_eValid : s.envelopeParsed.flag .eValid = true := by simp [State.envelopeParsed]

theorem envelopeSpanned_envelopeSum : s.envelopeSpanned.envelopeSum = s.envelopeSum := rfl

theorem flag_envelopeParsed_chkBad : s.envelopeParsed.flag .chkBad =
    (s.envelopeHeader.envelopeSum != Mem.read s.ibuf (s.cfg.payloadOffset + s.envelopeHeader.payloadLen)) := by
  simp [State.envelopeParsed, envelopeSpanned_envelopeSum]

end

/-- The input buffer holds `frame`, and its fields are in the `E_*` registers, the parse valid and nothing trailing
(R97, R172 to R181). -/
structure FrameParsed (frame : List Byte) (len ctrl cnt : Half) (ser : Word) (data payload : List Byte) (chk : Byte)
    (t : State) : Prop where
  holds : t.holdsInput frame
  eValid : t.flag .eValid = true
  chkBad : t.flag .chkBad = true ↔ sum8 (frame.tail.take (25 + payload.length)) ≠ chk
  eLen : t.eLen = len
  eCtrl : t.eCtrl = ctrl
  eCnt : t.eCnt = cnt
  eSer : t.eSer = ser
  ePoff : t.ePoff = 26
  ePlen : t.ePlen.toNat = payload.length
  eChk : t.eChk = chk
  eTlen : t.eTlen = 0
  eData : ∀ (j : Nat) (h : j < data.length), Mem.read t.eData j = data[j]

/-- The record and the port are no part of it. -/
theorem FrameParsed.closed {frame : List Byte} {len ctrl cnt : Half} {ser : Word} {data payload : List Byte} {chk : Byte}
    {s : State} (h : FrameParsed frame len ctrl cnt ser data payload chk s) (bad : Bool) (pos ent : Nat) :
    FrameParsed frame len ctrl cnt ser data payload chk (s.closed bad pos ent) := by
  cases bad with
  | true => exact { h with }
  | false => exact { h with }

section
variable {s : State} {frame data payload : List Byte} {len ctrl cnt : Half} {ser : Word} {chk : Byte}
variable (hf : frame = encode (.wireEnvelopeFrame len ctrl cnt ser data payload chk endDelim))
variable (hd : data.length = 15) (hin : s.holdsInput frame)
include hf hd hin

theorem envelopeHeader_eLen_of_frame : s.envelopeHeader.eLen = len := by
  rw [envelopeHeader_eLen, hin.readRange_eq (by rw [length_frame hf hd]; omega), (slice_frame_header hf).1, ofLE16_le16]

variable (hc : s.cfg.dataLen = 15) (hlen : len.toNat = 15 + payload.length)
include hc hlen

theorem envelopeHeader_payloadLen_of_frame : s.envelopeHeader.payloadLen = payload.length := by
  rw [State.payloadLen, envelopeHeader_eLen_of_frame hf hd hin, hlen, envelopeHeader_cfg, Config.lenBias, hc,
    Nat.add_sub_cancel_left]

theorem execEpRun_eq_closed_of_frame :
    exec .epRun s = .next (s.envelopeParsed.closed (s.envelopeParsed.flag .chkBad) (26 + payload.length) 7) := by
  have hl := length_frame hf hd
  have hilen : s.ilen.toNat = 28 + payload.length := hin.1.trans hl
  have hoff : s.cfg.payloadOffset = 26 := congrArg (hdrLen + ·) hc
  have hplen := envelopeHeader_payloadLen_of_frame hf hd hin hc hlen
  have hstart : Mem.read s.ibuf 0 = startDelim := by
    rw [hin.read_eq (by omega)]
    subst hf
    rfl
  have hend : Mem.read s.ibuf (26 + 1 + payload.length) = endDelim := by
    rw [hin.read_eq (by omega)]
    exact byteAt_frame_fin hf hd
  rw [execEpRun_parsed hstart ?bias ?whole ?fin, hoff, hplen]
  case bias => rw [envelopeHeader_eLen_of_frame hf hd hin, hlen, Config.lenBias, hc]; omega
  case whole => rw [hoff, hplen, hilen]; omega
  case fin => rwa [hoff, hplen]

theorem envelopeParsed_of_frame : FrameParsed frame len ctrl cnt ser data payload chk s.envelopeParsed := by
  have hl := length_frame hf hd
  have hoff : s.cfg.payloadOffset = 26 := congrArg (hdrLen + ·) hc
  have hplen := envelopeHeader_payloadLen_of_frame hf hd hin hc hlen
  obtain ⟨-, hctrl, hcnt, hser⟩ := slice_frame_header hf
  have hchk : Mem.read s.ibuf (s.cfg.payloadOffset + s.envelopeHeader.payloadLen) = chk := by
    rw [hoff, hplen, hin.read_eq (by omega), byteAt_frame_checksum hf hd]
  have hsum : s.envelopeHeader.envelopeSum = sum8 (frame.tail.take (25 + payload.length)) := by
    rw [State.envelopeSum, envelopeHeader_cfg, envelopeHeader_ibuf, hoff, hplen, hin.readRange_eq (by omega), slice,
      List.drop_one]
  have hdata : s.envelopeParsed.eData = Mem.writeRange [] 0 data := by
    rw [envelopeParsed_eData, envelopeHeader_eData, hc, hin.readRange_eq (show 11 + 15 ≤ frame.length by omega),
      slice_frame_data hf hd]
  exact
    { holds := hin.of_kept (envelopeParsed_ilen s) (envelopeParsed_ibuf s)
      eValid := flag_envelopeParsed_eValid s
      chkBad := by rw [flag_envelopeParsed_chkBad, hsum, hchk, bne_iff_ne]
      eLen := by rw [envelopeParsed_eLen, envelopeHeader_eLen_of_frame hf hd hin]
      eCtrl := by rw [envelopeParsed_eCtrl, envelopeHeader_eCtrl, hin.readRange_eq (by omega), hctrl, ofBE16_be16]
      eCnt := by rw [envelopeParsed_eCnt, envelopeHeader_eCnt, hin.readRange_eq (by omega), hcnt, ofBE16_be16]
      eSer := by rw [envelopeParsed_eSer, envelopeHeader_eSer, hin.readRange_eq (by omega), hser, ofLE32_le32]
      ePoff := by rw [envelopeParsed_ePoff, hoff]; rfl
      ePlen := by
        rw [envelopeParsed_ePlen, hplen, BitVec.toNat_ofNat, Nat.mod_eq_of_lt (by have := len.isLt; omega)]
      eChk := by rw [envelopeParsed_eChk, hchk]
      eTlen := by
        rw [envelopeParsed_eTlen, hin.1, hl, hoff, hplen,
          show 28 + payload.length - (26 + 2 + payload.length) = 0 by omega]
        rfl
      eData := fun j h => by rw [hdata]; exact Mem.read_writeRange_empty data h }

/-- `EP.RUN` on exactly one frame reads it whole. -/
theorem execEpRun_of_frame : ∃ t, exec .epRun s = .next t ∧ FrameParsed frame len ctrl cnt ser data payload chk t :=
  ⟨_, execEpRun_eq_closed_of_frame hf hd hin hc hlen, (envelopeParsed_of_frame hf hd hin hc hlen).closed _ _ _⟩

end

/-- What a frame that is loaded and parsed may change (R38, R102). -/
theorem eq_of_frame_writes {s t : State} (h : WritesWithin (messageWrites envelopeWrites) s t) :
    t = { s with
      status := t.status, err := t.err, errPos := t.errPos, errEnt := t.errEnt, sum := t.sum, ilen := t.ilen
      ibuf := t.ibuf, eState := t.eState, eStart := t.eStart, eLen := t.eLen, eCtrl := t.eCtrl, eCnt := t.eCnt
      eSer := t.eSer, ePoff := t.ePoff, ePlen := t.ePlen, eChk := t.eChk, eEnd := t.eEnd, eToff := t.eToff
      eTlen := t.eTlen, eNent := t.eNent, eData := t.eData, outcome := t.outcome } := by
  have hcnt : t.cnt = s.cnt := h.parts .cnt
  have hctrl : t.ctrl = s.ctrl := h.parts .ctrl
  have hrdata : t.rdata = s.rdata := h.parts .rdata
  have hpbuf : t.pbuf = s.pbuf := h.parts .pbuf
  have hobuf : t.obuf = s.obuf := h.parts .obuf
  have holen : t.olen = s.olen := h.parts .olen
  have hmReg : t.mReg = s.mReg := h.parts .mReg
  have hcrc : t.crc = s.crc := h.parts .crc
  have hmodbus : t.content .modbus = s.content .modbus := h.parts .modbus
  have hresponse : t.content .response = s.content .response := h.parts .response
  have hrequest : t.content .request = s.content .request := h.parts .request
  simp only [State.content, Prod.mk.injEq] at hmodbus hresponse hrequest
  obtain ⟨hmState, hmFc, hmCrc, hmToff, hmTlen, hmNent, hmBase, hmSlen⟩ := hmodbus
  rw [← h.cfg, ← h.pending, ← hcnt, ← hctrl, ← hrdata, ← hpbuf, ← hobuf, ← holen, ← hmReg, ← hcrc, ← hmState, ← hmFc,
    ← hmCrc, ← hmToff, ← hmTlen, ← hmNent, ← hmBase, ← hmSlen, ← hresponse.1, ← hresponse.2, ← hrequest.1, ← hrequest.2]

/-- Settles O41: the frame fits, so `EP.RUN` finds the input buffer holding exactly it. -/
theorem wireFrameIsParsed : Obligations.WireFrameIsParsed := by
  intro s len ctrl cnt ser data payload chk hw hm hc hd hlen hfits i
  have hlength : (encode i).length = 28 + payload.length := length_frame rfl hd
  obtain ⟨hin, hparse⟩ := wireRow_loaded (i := i) rfl hw hm (hlength.trans_le hfits)
  obtain ⟨t, ht, hp⟩ := execEpRun_of_frame rfl hd hin hc hlen
  have hexec : exec i s = .next t := hparse.trans ht
  exact ⟨t, hexec, hp.holds, hp.eValid, hp.chkBad, hp.eLen, hp.eCtrl, hp.eCnt, hp.eSer, hp.ePoff, hp.ePlen, hp.eChk,
    hp.eTlen, hp.eData, eq_of_frame_writes (exec_writes i s t hexec)⟩

end Sys2Proof.Machine

namespace Sys2Proof.Machine

/-! ## A Modbus message that is there whole (R191 to R202) -/

/-- A parse that reaches its CRC field is closed by what the check says (R193, R200, R201). -/
theorem modbusCrc_finish {s : State} {pos : Nat} (h : pos + 2 ≤ s.mSlen.toNat)
    (hb : s.mBase.toNat + pos + 2 ≤ s.ilen.toNat) (ent : Nat) :
    (modbusCrc pos ent s).finish =
      .next ((s.modbusFinished pos ent).closed (s.modbusCheck pos != s.modbusField pos) pos ent) := by
  rw [modbusCrc_whole h hb, ← flagMismatch_or_go_finish]
  by_cases hcheck : s.modbusCheck pos = s.modbusField pos <;> simp [hcheck]

/-- The state after the first three fields of a request (R193). -/
def State.requestRead (s : State) : State :=
  State.modbusAt { s with
    mFc := s.functionCodeField
    mStart := ofBE16 (Mem.readRange s.ibuf (s.mBase.toNat + 2) 2)
    mCount := ofBE16 (Mem.readRange s.ibuf (s.mBase.toNat + 4) 2) } 3 .expectCrc

/-- The first three fields of a request, where they are there whole (R193). -/
theorem requestFields_go {s : State} (h : 6 ≤ s.mSlen.toNat) (hb : s.mBase.toNat + 6 ≤ s.ilen.toNat) :
    ((requestFunctionCode s).andThen requestStart).andThen requestCount = .go s.requestRead := by
  rw [requestFunctionCode, mtake_of_le (by omega) (by omega), andThen_go, requestStart,
    mtake_of_le (by simp; omega) (by simp; omega), andThen_go, requestCount,
    mtake_of_le (by simp; omega) (by simp; omega)]
  rfl

theorem tableDone_mReg (s : State) : s.tableDone.mReg = Mem.writeRange s.mReg 0
    (tableOf s.cfg.catalogRegs (Mem.readRange s.ibuf (s.mBase.toNat + 3) (2 * s.cfg.catalogRegs))) := rfl

theorem tableDone_mNreg {s : State} (h : s.cfg.catalogRegs ≠ 0) :
    s.tableDone.mNreg = BitVec.ofNat 8 s.cfg.catalogRegs := by
  show (if s.cfg.catalogRegs = 0 then _ else BitVec.ofNat 8 (0 + s.cfg.catalogRegs)) = _
  rw [if_neg h, Nat.zero_add]

/-- A parse of the whole input buffer, which holds `message` (R191). -/
structure State.ParsesInput (s : State) (message : List Byte) : Prop where
  holds : s.holdsInput message
  base : s.mBase = 0
  span : s.mSlen = s.ilen

section
variable {s : State} {message : List Byte}

/-- `src = 1` selects the whole input buffer (R191). -/
theorem State.holdsInput.modbusOpened (h : s.holdsInput message) (isResponse : Bool) :
    (s.modbusOpened isResponse 1).ParsesInput message := ⟨h, rfl, rfl⟩

variable (h : s.ParsesInput message)
include h

theorem State.ParsesInput.requestRead : s.requestRead.ParsesInput message := ⟨h.holds, h.base, h.span⟩

theorem State.ParsesInput.codeRead (st : ModbusState) : (s.codeRead st).ParsesInput message := ⟨h.holds, h.base, h.span⟩

theorem State.ParsesInput.lengthRead (st : ModbusState) : (s.lengthRead st).ParsesInput message :=
  ⟨h.holds, h.base, h.span⟩

theorem State.ParsesInput.tableDone : s.tableDone.ParsesInput message := ⟨h.holds, h.base, h.span⟩

theorem State.ParsesInput.mSlen_eq : s.mSlen.toNat = message.length := by rw [h.span, h.holds.1]

/-- What lies in the message lies in the span and in the input buffer. -/
theorem State.ParsesInput.fits {n : Nat} (hn : n ≤ message.length) :
    n ≤ s.mSlen.toNat ∧ s.mBase.toNat + n ≤ s.ilen.toNat := by
  have hbase : s.mBase.toNat = 0 := congrArg BitVec.toNat h.base
  rw [h.mSlen_eq, hbase, h.holds.1]
  omega

theorem State.ParsesInput.readRange_eq {pos n : Nat} (hn : pos + n ≤ message.length) :
    Mem.readRange s.ibuf (s.mBase.toNat + pos) n = slice message pos n := by
  have hbase : s.mBase.toNat = 0 := congrArg BitVec.toNat h.base
  rw [hbase, Nat.zero_add, h.holds.readRange_eq hn]

theorem State.ParsesInput.read_eq {pos : Nat} (hn : pos < message.length) :
    Mem.read s.ibuf (s.mBase.toNat + pos) = byteAt message pos := by
  have hbase : s.mBase.toNat = 0 := congrArg BitVec.toNat h.base
  rw [hbase, Nat.zero_add, h.holds.read_eq hn]

theorem State.ParsesInput.functionCodeField (hn : 2 ≤ message.length) :
    s.functionCodeField = ofBE16 (slice message 0 2) :=
  congrArg ofBE16 (h.readRange_eq (pos := 0) (by omega))

/-- The check covers the message before its CRC field (R202). -/
theorem State.ParsesInput.modbusCheck {pos : Nat} (hn : pos ≤ message.length) :
    s.modbusCheck pos = crc16 (message.take pos) :=
  congrArg crc16 (h.readRange_eq (pos := 0) (by omega))

theorem State.ParsesInput.modbusField {pos : Nat} (hn : pos + 2 = message.length) :
    s.modbusField pos = ofLE16 (message.drop pos) := by
  refine congrArg ofLE16 ((h.readRange_eq (by omega)).trans (List.take_of_length_le ?_))
  rw [List.length_drop]
  omega

/-- The registers of a whole table are read into `M_REG` and counted (R199). -/
theorem State.ParsesInput.tableDone_table {len : Byte} {table : List Half} {crc : Half}
    (hm : message = encode (.wireModbusResponseRead len table crc)) (htable : table.length = s.cfg.catalogRegs)
    (hmin : 1 ≤ table.length) (hreg : s.mReg = []) :
    s.tableDone.mNreg = BitVec.ofNat 8 table.length ∧ s.tableDone.mReg = Mem.writeRange [] 0 table := by
  have hlen := length_response hm
  rw [tableDone_mNreg (by omega), tableDone_mReg, hreg, ← htable, h.readRange_eq (by omega), slice_response_table hm,
    tableOf_tableBytes]
  exact ⟨rfl, rfl⟩

end

/-- The parse that read the fields before the CRC field into `w` has read the whole of `message` in `t`: it is valid,
the CRC field is `crc`, and nothing trails (R193, R200 to R202). -/
structure ModbusParsed (message : List Byte) (crc : Half) (w t : State) : Prop where
  holds : t.holdsInput message
  mValid : t.flag .mValid = true
  crcBad : t.flag .crcBad = true ↔ t.crc ≠ crc
  crc_eq : t.crc = crc16 (message.take (message.length - 2))
  mCrc : t.mCrc = crc
  mTlen : t.mTlen = 0
  mBase : t.mBase = 0
  mFc : t.mFc = w.mFc
  mLen : t.mLen = w.mLen
  mStart : t.mStart = w.mStart
  mCount : t.mCount = w.mCount
  mNreg : t.mNreg = w.mNreg
  mReg : t.mReg = w.mReg
  mRsp : t.flag .mRsp = w.flag .mRsp

section
variable {message : List Byte} {crc : Half} {w t : State}

/-- The record and the port are no part of it. -/
theorem ModbusParsed.closed (h : ModbusParsed message crc w t) (bad : Bool) (pos ent : Nat) :
    ModbusParsed message crc w (t.closed bad pos ent) := by
  cases bad with
  | true => exact { h with }
  | false => exact { h with }

variable {pos : Nat} (h : w.ParsesInput message) (hlen : message.length = pos + 2) (hcrc : message.drop pos = le16 crc)
include h hlen hcrc

theorem modbusFinished_of_input (ent : Nat) : ModbusParsed message crc w (w.modbusFinished pos ent) := by
  have hcheck := h.modbusCheck (pos := pos) (by omega)
  have hfield : w.modbusField pos = crc := by rw [h.modbusField hlen.symm, hcrc, ofLE16_le16]
  exact
    { holds := h.holds.of_kept (modbusFinished_ilen w pos ent) (modbusFinished_ibuf w pos ent)
      mValid := by simp
      crcBad := by simp [hfield]
      crc_eq := by rw [modbusFinished_crc, hcheck, hlen, Nat.add_sub_cancel]
      mCrc := by rw [modbusFinished_mCrc, hfield]
      mTlen := by rw [modbusFinished_mTlen, h.mSlen_eq, hlen, Nat.sub_self]; rfl
      mBase := by rw [modbusFinished_mBase, h.base]
      mFc := modbusFinished_mFc w pos ent
      mLen := modbusFinished_mLen w pos ent
      mStart := modbusFinished_mStart w pos ent
      mCount := modbusFinished_mCount w pos ent
      mNreg := modbusFinished_mNreg w pos ent
      mReg := modbusFinished_mReg w pos ent
      mRsp := by simp }

/-- The end of a parse of exactly one message (R193, R200, R201). -/
theorem modbusCrc_of_input (ent : Nat) : ∃ t, (modbusCrc pos ent w).finish = .next t ∧ ModbusParsed message crc w t := by
  obtain ⟨hspan, hinput⟩ := h.fits (Nat.le_of_eq hlen.symm)
  exact ⟨_, modbusCrc_finish hspan (by omega) ent, (modbusFinished_of_input h hlen hcrc ent).closed _ _ _⟩

end

section
variable {s : State} {message : List Byte} (hin : s.holdsInput message)
include hin

/-- `MP.CMD 1` on exactly one request (R193). -/
theorem execMpCmd_of_request {fc start count crc : Half} (hm : message = encode (.wireModbusRequest fc start count crc)) :
    ∃ w t, exec (.mpCmd 1) s = .next t ∧ ModbusParsed message crc w t ∧
      w.mFc = fc ∧ w.mStart = start ∧ w.mCount = count ∧ w.flag .mRsp = false := by
  have ho := hin.modbusOpened false
  have hlen : message.length = 6 + 2 := by subst hm; rfl
  obtain ⟨hspan, hinput⟩ := ho.fits (n := 6) (by omega)
  obtain ⟨t, ht, hp⟩ := modbusCrc_of_input (crc := crc) ho.requestRead hlen (by subst hm; rfl) 3
  refine ⟨_, t, ?_, hp, ?_, ?_, ?_, flag_modbusOpened s false 1 .mRsp⟩
  · rw [execMpCmd_eq (.inr rfl), requestFields_go hspan hinput, andThen_go, ht]
  · refine (ho.functionCodeField (by omega)).trans ?_
    subst hm
    exact ofBE16_be16 fc
  · refine (congrArg ofBE16 (ho.readRange_eq (by omega))).trans ?_
    subst hm
    exact ofBE16_be16 start
  · refine (congrArg ofBE16 (ho.readRange_eq (by omega))).trans ?_
    subst hm
    exact ofBE16_be16 count

/-- `MP.RSP 1` on exactly one acknowledgement (R197). -/
theorem execMpRsp_of_ack {fc crc : Half} (hfc : fc ≠ fcRead) (hm : message = encode (.wireModbusResponseAck fc crc)) :
    ∃ w t, exec (.mpRsp 1) s = .next t ∧ ModbusParsed message crc w t ∧
      w.mFc = fc ∧ w.mNreg = 0 ∧ w.flag .mRsp = true := by
  have ho := hin.modbusOpened true
  have hlen : message.length = 2 + 2 := by subst hm; rfl
  obtain ⟨hspan, hinput⟩ := ho.fits (n := 2) (by omega)
  have hcode : (s.modbusOpened true 1).functionCodeField = fc := by
    rw [ho.functionCodeField (by omega)]
    subst hm
    exact ofBE16_be16 fc
  obtain ⟨t, ht, hp⟩ := modbusCrc_of_input (crc := crc) (ho.codeRead .expectCrc) hlen (by subst hm; rfl) 1
  refine ⟨_, t, ?_, hp, hcode, rfl, flag_modbusOpened s true 1 .mRsp⟩
  rw [execMpRsp_eq (.inr rfl), responseFunctionCode_other hspan hinput (hcode ▸ hfc), ht]

/-- The start of a read response: its function code leads to the length byte (R197). -/
theorem execMpRsp_of_read (hlen : 2 ≤ message.length) (hcode : slice message 0 2 = be16 fcRead) :
    exec (.mpRsp 1) s = (responseLength ((s.modbusOpened true 1).codeRead .expectLength)).finish ∧
      ((s.modbusOpened true 1).codeRead .expectLength).mFc = fcRead := by
  have ho := hin.modbusOpened true
  obtain ⟨hspan, hinput⟩ := ho.fits hlen
  have hcode : (s.modbusOpened true 1).functionCodeField = fcRead := by
    rw [ho.functionCodeField hlen, hcode, ofBE16_be16]
  exact ⟨by rw [execMpRsp_eq (.inr rfl), responseFunctionCode_read hspan hinput hcode], hcode⟩

/-- `MP.RSP 1` on exactly one empty read (R198). -/
theorem execMpRsp_of_emptyRead {crc : Half} (hm : message = encode (.wireModbusResponseEmptyRead crc)) :
    ∃ w t, exec (.mpRsp 1) s = .next t ∧ ModbusParsed message crc w t ∧
      w.mFc = fcRead ∧ w.mLen = 0 ∧ w.mNreg = 0 ∧ w.flag .mRsp = true := by
  have hlen : message.length = 3 + 2 := by subst hm; rfl
  obtain ⟨hexec, hcode⟩ := execMpRsp_of_read hin (by omega) (by subst hm; rfl)
  have ho := (hin.modbusOpened true).codeRead .expectLength
  obtain ⟨hspan, hinput⟩ := ho.fits (n := 3) (by omega)
  have hbyte : Mem.read s.ibuf (0 + 2) = 0 := by
    refine (ho.read_eq (by omega)).trans ?_
    subst hm
    rfl
  obtain ⟨t, ht, hp⟩ := modbusCrc_of_input (crc := crc) (ho.lengthRead .expectCrc) hlen (by subst hm; rfl) 2
  refine ⟨_, t, ?_, hp, hcode, hbyte, rfl, flag_modbusOpened s true 1 .mRsp⟩
  rw [hexec, responseLength_empty hspan hinput hbyte, ht]

/-- `MP.RSP 1` on exactly one read response with a table of `CATALOG_REGS` registers (R198, R199). -/
theorem execMpRsp_of_table {len : Byte} {table : List Half} {crc : Half}
    (hm : message = encode (.wireModbusResponseRead len table crc)) (hl : len ≠ 0)
    (htable : table.length = s.cfg.catalogRegs) (hmin : 1 ≤ table.length) :
    ∃ w t, exec (.mpRsp 1) s = .next t ∧ ModbusParsed message crc w t ∧
      w.mFc = fcRead ∧ w.mLen = len ∧ w.mNreg = BitVec.ofNat 8 table.length ∧ w.mReg = Mem.writeRange [] 0 table ∧
      w.flag .mRsp = true := by
  have hlen := length_response hm
  obtain ⟨hexec, hcode⟩ := execMpRsp_of_read hin (by omega) (by subst hm; rfl)
  have ho := (hin.modbusOpened true).codeRead .expectLength
  obtain ⟨hspan, hinput⟩ := ho.fits (n := 3) (by omega)
  have hbyte : Mem.read s.ibuf (0 + 2) = len := by
    refine (ho.read_eq (by omega)).trans ?_
    subst hm
    rfl
  have hr := ho.lengthRead .expectPayload
  obtain ⟨hspan', hinput'⟩ := hr.fits (n := 3 + 2 * s.cfg.catalogRegs) (by omega)
  obtain ⟨hnreg, hreg⟩ := hr.tableDone_table hm htable hmin rfl
  obtain ⟨t, ht, hp⟩ := modbusCrc_of_input (crc := crc) (pos := 3 + 2 * s.cfg.catalogRegs) hr.tableDone
    (by omega) (htable ▸ drop_response_table hm) (s.cfg.catalogRegs + 2)
  refine ⟨_, t, ?_, hp, hcode, hbyte, hnreg, hreg, flag_modbusOpened s true 1 .mRsp⟩
  rw [hexec, responseLength_table hspan hinput (hbyte ▸ hl), responsePayload_go hspan' hinput']
  exact ht

end

/-- What a Modbus message that is loaded and parsed may change (R38, R102). -/
theorem eq_of_modbus_writes {isResponse : Bool} {s t : State}
    (h : WritesWithin (messageWrites (modbusWrites isResponse)) s t) :
    t = { s with
      status := t.status, err := t.err, errPos := t.errPos, errEnt := t.errEnt, crc := t.crc, ilen := t.ilen
      ibuf := t.ibuf, mState := t.mState, mFc := t.mFc, mLen := t.mLen, mStart := t.mStart, mCount := t.mCount
      mCrc := t.mCrc, mNreg := t.mNreg, mToff := t.mToff, mTlen := t.mTlen, mNent := t.mNent, mBase := t.mBase
      mSlen := t.mSlen, mReg := t.mReg, outcome := t.outcome } := by
  have hcnt : t.cnt = s.cnt := h.parts .cnt
  have hctrl : t.ctrl = s.ctrl := h.parts .ctrl
  have hrdata : t.rdata = s.rdata := h.parts .rdata
  have hpbuf : t.pbuf = s.pbuf := h.parts .pbuf
  have hobuf : t.obuf = s.obuf := h.parts .obuf
  have holen : t.olen = s.olen := h.parts .olen
  have hdata : t.eData = s.eData := h.parts .eData
  have hsum : t.sum = s.sum := h.parts .sum
  have henvelope : t.content .envelope = s.content .envelope := h.parts .envelope
  simp only [State.content, Prod.mk.injEq] at henvelope
  obtain ⟨heState, heStart, heLen, heCtrl, heCnt, heSer, hePoff, hePlen, heChk, heEnd, heToff, heTlen, heNent⟩ :=
    henvelope
  rw [← h.cfg, ← h.pending, ← hcnt, ← hctrl, ← hrdata, ← hpbuf, ← hobuf, ← holen, ← hdata, ← hsum, ← heState,
    ← heStart, ← heLen, ← heCtrl, ← heCnt, ← heSer, ← hePoff, ← hePlen, ← heChk, ← heEnd, ← heToff, ← heTlen, ← heNent]

/-- Settles O42: each message fits, so its parser finds the input buffer holding exactly it. -/
theorem wireModbusMessagesAreParsed : Obligations.WireModbusMessagesAreParsed := by
  intro s hw hc parsed
  obtain ⟨hmin, hmax, hbuf, hm, -⟩ := hc
  have parsed_of : ∀ {i : Instr} {isResponse : Bool} {fc crc : Half} {w t : State},
      writesOf i = messageWrites (modbusWrites isResponse) → exec i s = .next t →
      ModbusParsed (encode i) crc w t → w.mFc = fc → parsed i fc crc t := by
    intro i isResponse fc crc w t hi ht hp hfc
    exact ⟨ht, hp.holds, hp.mValid, hp.crcBad, hp.mFc.trans hfc, hp.mCrc, hp.mTlen, hp.mBase, hp.crc_eq,
      eq_of_modbus_writes (hi ▸ exec_writes i s t ht)⟩
  refine ⟨fun fc start count crc => ?request, fun fc crc hack => ?ack, fun crc => ?emptyRead,
    fun len table crc hl htable hfits => ?read⟩
  case request =>
    obtain ⟨hin, hexec⟩ := wireRow_loaded (i := .wireModbusRequest fc start count crc) rfl hw hm (show 8 ≤ _ by omega)
    obtain ⟨w, t, ht, hp, hfc, hstart, hcount, hrsp⟩ := execMpCmd_of_request hin rfl
    exact ⟨t, parsed_of rfl (hexec.trans ht) hp hfc, hp.mStart.trans hstart, hp.mCount.trans hcount, hp.mRsp.trans hrsp⟩
  case ack =>
    obtain ⟨hin, hexec⟩ := wireRow_loaded (i := .wireModbusResponseAck fc crc) rfl hw hm (show 4 ≤ _ by omega)
    obtain ⟨w, t, ht, hp, hfc, hnreg, hrsp⟩ := execMpRsp_of_ack hin hack rfl
    exact ⟨t, parsed_of rfl (hexec.trans ht) hp hfc, hp.mNreg.trans hnreg, hp.mRsp.trans hrsp⟩
  case emptyRead =>
    obtain ⟨hin, hexec⟩ := wireRow_loaded (i := .wireModbusResponseEmptyRead crc) rfl hw hm (show 5 ≤ _ by omega)
    obtain ⟨w, t, ht, hp, hfc, hlen, hnreg, hrsp⟩ := execMpRsp_of_emptyRead hin rfl
    exact ⟨t, parsed_of rfl (hexec.trans ht) hp hfc, hp.mLen.trans hlen, hp.mNreg.trans hnreg, hp.mRsp.trans hrsp⟩
  case read =>
    obtain ⟨hin, hexec⟩ := wireRow_loaded (i := .wireModbusResponseRead len table crc) rfl hw hm
      ((length_response rfl).trans_le hfits)
    obtain ⟨w, t, ht, hp, hfc, hlen, hnreg, hreg, hrsp⟩ := execMpRsp_of_table hin rfl hl htable (by omega)
    refine ⟨t, parsed_of rfl (hexec.trans ht) hp hfc, hp.mLen.trans hlen, ?_, fun j h => ?_, hp.mRsp.trans hrsp⟩
    · rw [hp.mNreg, hnreg, BitVec.toNat_ofNat, Nat.mod_eq_of_lt (by omega)]
    · rw [hp.mReg, hreg]
      exact Mem.read_writeRange_empty table h

end Sys2Proof.Machine

/-! What 40_crc16.md says of the CRC-16 unit: the mathematics of `crc_step` (R131, R137, R138), then the three commands
(R133 to R136). The start value, the polynomial and the bit order are the spec's from general knowledge (log entry 9). -/

namespace Sys2Proof.Machine

/-! ## The CRC step is a bijection of the register (R131, R138) -/

/-- A register is known from its lowest bit and from what a right shift leaves of it. -/
theorem eq_of_shifted_of_low {c d : Half} (hs : c >>> 1 = d >>> 1) (h0 : c.getLsbD 0 = d.getLsbD 0) : c = d := by
  refine BitVec.eq_of_getLsbD_eq fun i _ => ?_
  cases i with
  | zero => exact h0
  | succ i =>
    have hi := congrArg (BitVec.getLsbD · i) hs
    simpa [Nat.add_comm] using hi

/-- The dropped bit is not lost: the polynomial has bit 15, which a right shift leaves 0. -/
theorem getLsbD_crcShift_top (c : Half) : (crcShift c).getLsbD 15 = c.getLsbD 0 := by
  have htop : (c >>> 1).getLsbD 15 = false := by simp
  cases h : c.getLsbD 0 with
  | false => rw [crcShift, h, if_neg Bool.false_ne_true, htop]
  | true => rw [crcShift, h, if_pos rfl, BitVec.getLsbD_xor, htop]; rfl

theorem crcShift_injective : Function.Injective crcShift := by
  intro c d h
  have h0 : c.getLsbD 0 = d.getLsbD 0 := by rw [← getLsbD_crcShift_top, h, getLsbD_crcShift_top]
  rw [crcShift, crcShift, h0] at h
  split at h
  · exact eq_of_shifted_of_low ((BitVec.xor_left_inj _).1 h) h0
  · exact eq_of_shifted_of_low h h0

theorem crcShifts_injective (n : Nat) : Function.Injective (crcShifts n) := by
  induction n with
  | zero => exact Function.injective_id
  | succ n ih => exact ih.comp crcShift_injective

theorem crcStep_injective (b : Byte) : Function.Injective (crcStep · b) :=
  (crcShifts_injective 8).comp fun _ _ => (BitVec.xor_left_inj _).1

/-- The byte may be xored into the register beforehand: it enters in no other way. -/
theorem crcStep_eq_crcStep_xor (c : Half) (b : Byte) : crcStep c b = crcStep (c ^^^ b.setWidth 16) 0 := by
  rw [crcStep, crcStep, show (0 : Byte).setWidth 16 = 0#16 from rfl, BitVec.xor_zero]

/-- Settles O15: each shift is injective, and the register has finitely many values. -/
theorem crcStepIsABijection : Obligations.CrcStepIsABijection := fun b =>
  ⟨fun _ _ h => crcStep_injective b h, Finite.surjective_of_injective (crcStep_injective b),
    (crcStep_eq_crcStep_xor · b)⟩

/-! ## The residue of a string with its own CRC is 0 (R132, R137) -/

/-- While the bits that drop are 0, the polynomial is never xored in. -/
theorem crcShifts_of_low_zero (n : Nat) (c : Half) (h : ∀ i < n, c.getLsbD i = false) : crcShifts n c = c >>> n := by
  induction n generalizing c with
  | zero => exact (BitVec.ushiftRight_zero c).symm
  | succ n ih =>
    have hshift : crcShift c = c >>> 1 := by rw [crcShift, h 0 n.succ_pos, if_neg Bool.false_ne_true]
    have hlow : ∀ i < n, (c >>> 1).getLsbD i = false := fun i hi => by
      rw [BitVec.getLsbD_ushiftRight]
      exact h (1 + i) (by omega)
    rw [crcShifts, hshift, ih _ hlow, Nat.add_comm n 1, BitVec.shiftRight_add]

/-- The register's own low byte cancels that byte, and its high byte moves down. -/
theorem crcStep_own_low_byte (c : Half) : crcStep c (c.extractLsb' 0 8) = (c.extractLsb' 8 8).setWidth 16 := by
  have hlow : ∀ i < 8, (c ^^^ (c.extractLsb' 0 8).setWidth 16).getLsbD i = false := fun i hi => by
    simp [hi, show i < 16 by omega]
  rw [crcStep, crcShifts_of_low_zero 8 _ hlow]
  refine BitVec.eq_of_getLsbD_eq fun i hi => ?_
  by_cases h8 : i < 8
  · simp [h8, hi]
  · simp [h8, hi, BitVec.getLsbD_of_ge c (8 + i) (by omega)]

/-- A register that holds a byte is cancelled by that byte. -/
theorem crcStep_setWidth_self (b : Byte) : crcStep (b.setWidth 16) b = 0 := by
  rw [crcStep, BitVec.xor_self, crcShifts_of_low_zero 8 _ fun _ _ => BitVec.getLsbD_zero]
  rfl

/-- Settles O14: the first byte appended leaves the second in the register, which that one cancels. -/
theorem crcOfMessageWithItsCrcIsZero : Obligations.CrcOfMessageWithItsCrcIsZero := by
  intro bytes
  calc crc16 (bytes ++ le16 (crc16 bytes))
    _ = crcStep (crcStep (crc16 bytes) ((crc16 bytes).extractLsb' 0 8)) ((crc16 bytes).extractLsb' 8 8) :=
        List.foldl_append
    _ = 0 := by rw [crcStep_own_low_byte, crcStep_setWidth_self]

/-! ## The commands (R133 to R136) -/

/-- The state after a command that has written the CRC register and nothing else. -/
def State.crcDone (s : State) (c : Half) : State := State.withOutcome { s with crc := c } .ok

theorem exec_crcInit (s : State) : exec .crcInit s = .next (s.crcDone crcInitValue) := rfl

theorem exec_crcUpd (a : Byte) (s : State) : exec (.crcUpd a) s = .next (s.crcDone (crcStep s.crc a)) := rfl

/-- A second CRC command overwrites what the first one wrote. -/
@[simp] theorem crcDone_crcDone (s : State) (c d : Half) : (s.crcDone c).crcDone d = s.crcDone d := rfl

/-- `CRC.BUF` of a range inside the input (R135). -/
theorem exec_crcBuf_of_le {s : State} {a b : Half} (h : a.toNat + b.toNat ≤ s.ilen.toNat) :
    exec (.crcBuf a b) s = .next (s.crcDone (crc16 (Mem.readRange s.ibuf a.toNat b.toNat))) := by
  show execCrcBuf a b s = _
  rw [execCrcBuf, if_neg (Nat.not_lt.2 h), memRead_of_le (b := .ibuf) h, finish_go]
  rfl

/-- `CRC.BUF` of a range that runs past the input (R135). -/
theorem exec_crcBuf_of_gt {s : State} {a b : Half} (h : s.ilen.toNat < a.toNat + b.toNat) :
    exec (.crcBuf a b) s = .next (s.failed .truncatedInput a.toNat 0) := by
  show execCrcBuf a b s = _
  rw [execCrcBuf, if_pos h, raise_eq, finish_ended]
  rfl

/-- One `CRC.UPD` per byte folds the CRC step over the bytes (R130, R134). -/
theorem runSeq_crcUpd (bytes : List Byte) (s : State) (c : Half) :
    runSeq (bytes.map .crcUpd) (s.crcDone c) = .next (s.crcDone (bytes.foldl crcStep c)) := by
  induction bytes generalizing c with
  | nil => rfl
  | cons a bytes ih =>
    calc runSeq ((a :: bytes).map .crcUpd) (s.crcDone c)
      _ = runSeq (bytes.map .crcUpd) (s.crcDone (crcStep c a)) := by
          rw [List.map_cons, runSeq, exec_crcUpd, afterNext_next, crcDone_crcDone]
          rfl
      _ = .next (s.crcDone ((a :: bytes).foldl crcStep c)) := ih _

/-- `CRC.INIT` and then one `CRC.UPD` per byte compute `crc16` of the bytes (R136). -/
theorem runSeq_crcInit_crcUpd (bytes : List Byte) (s : State) :
    runSeq (.crcInit :: bytes.map .crcUpd) s = .next (s.crcDone (crc16 bytes)) := by
  rw [runSeq, exec_crcInit, afterNext_next, runSeq_crcUpd]
  rfl

/-- Settles O12: both sides leave `crc16` of the range. -/
theorem crcBufAgreesWithByteSerialCrc : Obligations.CrcBufAgreesWithByteSerialCrc := fun _ _ _ h =>
  ⟨(exec_crcBuf_of_le h).trans (runSeq_crcInit_crcUpd _ _).symm, exec_crcBuf_of_le h⟩

/-- Settles O11: the statement's shift is `crcShift`, and `crcStep` is eight of them. -/
theorem crcInitAndUpdateFollowTheRule : Obligations.CrcInitAndUpdateFollowTheRule := fun s a =>
  ⟨exec_crcInit s, exec_crcUpd a s⟩

/-- Settles O13. -/
theorem crcBufRangePastTheEndRaises : Obligations.CrcBufRangePastTheEndRaises := fun _ _ _ => exec_crcBuf_of_gt

end Sys2Proof.Machine

/-! What 41_sum8.md says of the checksum unit: `sum8` as the sum of the bytes (R140, R146), then the three commands
(R142 to R145). -/

namespace Sys2Proof.Machine

/-! ## The sum of a byte string (R140, R146) -/

/-- `sum8` is the sum in the ring of bytes, so the laws of `List.sum` speak of it. -/
theorem sum8_eq_sum (bytes : List Byte) : sum8 bytes = bytes.sum := List.sum_eq_foldl.symm

theorem sum8_nil : sum8 [] = 0 := rfl

theorem sum8_cons (a : Byte) (bytes : List Byte) : sum8 (a :: bytes) = a + sum8 bytes := by
  simp only [sum8_eq_sum, List.sum_cons]

theorem sum8_append (left right : List Byte) : sum8 (left ++ right) = sum8 left + sum8 right := by
  simp only [sum8_eq_sum, List.sum_append]

theorem sum8_perm {bytes other : List Byte} (h : bytes.Perm other) : sum8 other = sum8 bytes := by
  rw [sum8_eq_sum, sum8_eq_sum, h.sum_eq]

theorem toNat_sum8 (bytes : List Byte) : (sum8 bytes).toNat = (bytes.map BitVec.toNat).sum % 256 := by
  induction bytes with
  | nil => rfl
  | cons a bytes ih => rw [sum8_cons, BitVec.toNat_add, ih, List.map_cons, List.sum_cons, Nat.add_mod_mod]

/-- The sum of a range splits at any byte (R146). -/
theorem sum8_append_cons (left right : List Byte) (x : Byte) :
    sum8 (left ++ x :: right) = sum8 left + x + sum8 right := by
  rw [sum8_append, sum8_cons, BitVec.add_assoc]

/-- Settles O16. -/
theorem sum8IsTheTotalModulo256 : Obligations.Sum8IsTheTotalModulo256 := fun bytes =>
  ⟨toNat_sum8 bytes, fun _ => sum8_perm⟩

/-- Settles O17: what stands before and after the byte cancels. -/
theorem singleByteErrorChangesTheSum : Obligations.SingleByteErrorChangesTheSum := by
  refine fun left right x y => ⟨sum8_append_cons left right x, fun h => ?_⟩
  rw [sum8_append_cons, sum8_append_cons] at h
  exact (BitVec.add_right_inj _).1 ((BitVec.add_left_inj _).1 h)

/-! ## The commands (R142 to R145) -/

/-- The state after a command that has written the checksum register and nothing else. -/
def State.sumDone (s : State) (c : Byte) : State := State.withOutcome { s with sum := c } .ok

theorem exec_sumInit (s : State) : exec .sumInit s = .next (s.sumDone 0) := rfl

theorem exec_sumUpd (a : Byte) (s : State) : exec (.sumUpd a) s = .next (s.sumDone (s.sum + a)) := rfl

/-- A second checksum command overwrites what the first one wrote. -/
@[simp] theorem sumDone_sumDone (s : State) (c d : Byte) : (s.sumDone c).sumDone d = s.sumDone d := rfl

@[simp] theorem sumDone_sum (s : State) (c : Byte) : (s.sumDone c).sum = c := rfl

/-- `SUM.BUF` of a range inside the input (R144). -/
theorem exec_sumBuf_of_le {s : State} {a b : Half} (h : a.toNat + b.toNat ≤ s.ilen.toNat) :
    exec (.sumBuf a b) s = .next (s.sumDone (sum8 (Mem.readRange s.ibuf a.toNat b.toNat))) := by
  show execSumBuf a b s = _
  rw [execSumBuf, if_neg (Nat.not_lt.2 h), memRead_of_le (b := .ibuf) h, finish_go]
  rfl

/-- `SUM.BUF` of a range that runs past the input (R144). -/
theorem exec_sumBuf_of_gt {s : State} {a b : Half} (h : s.ilen.toNat < a.toNat + b.toNat) :
    exec (.sumBuf a b) s = .next (s.failed .truncatedInput a.toNat 0) := by
  show execSumBuf a b s = _
  rw [execSumBuf, if_pos h, raise_eq, finish_ended]
  rfl

/-- One `SUM.UPD` per byte adds the sum of the bytes to the register (R143). -/
theorem runSeq_sumUpd (bytes : List Byte) (s : State) (c : Byte) :
    runSeq (bytes.map .sumUpd) (s.sumDone c) = .next (s.sumDone (c + sum8 bytes)) := by
  induction bytes generalizing c with
  | nil => rw [sum8_nil, add_zero, List.map_nil, runSeq]
  | cons a bytes ih =>
    rw [List.map_cons, runSeq, exec_sumUpd, afterNext_next, sumDone_sumDone, sumDone_sum, ih, sum8_cons,
      BitVec.add_assoc]

/-- `SUM.INIT` and then one `SUM.UPD` per byte compute `sum8` of the bytes (R145). -/
theorem runSeq_sumInit_sumUpd (bytes : List Byte) (s : State) :
    runSeq (.sumInit :: bytes.map .sumUpd) s = .next (s.sumDone (sum8 bytes)) := by
  rw [runSeq, exec_sumInit, afterNext_next, runSeq_sumUpd, zero_add]

/-- Settles O19: the serial sum of the bytes is their `sum8`, which has no order. -/
theorem sumBufAgreesWithByteSerialSum : Obligations.SumBufAgreesWithByteSerialSum := by
  refine ⟨fun _ _ _ _ => rfl, fun s a b => ⟨exec_sumBuf_of_gt, fun h => ⟨exec_sumBuf_of_le h, fun bytes hperm => ?_⟩⟩⟩
  rw [runSeq_sumInit_sumUpd, sum8_perm hperm, exec_sumBuf_of_le h]

/-- Bytes are added modulo 256. -/
theorem byte_add_eq_ofNat (a b : Byte) : a + b = BitVec.ofNat 8 ((a.toNat + b.toNat) % 256) := by
  rw [← BitVec.toNat_add, BitVec.ofNat_toNat, BitVec.setWidth_eq]

/-- Settles O18. -/
theorem sumInitAndUpdateFollowTheRule : Obligations.SumInitAndUpdateFollowTheRule := by
  refine ⟨rfl, fun _ => rfl, fun s a => ⟨exec_sumInit s, ?_⟩⟩
  rw [exec_sumUpd, byte_add_eq_ofNat]
  rfl

end Sys2Proof.Machine

/-! What 42_system_and_buffers.md says of the system commands (R150 to R154) and of the buffers (R155 to R160), and that
no command stops the FCB (R220). -/

namespace Sys2Proof.Machine

/-! ## Every command goes on (R220, R233)

The one way to stop is a read that R14 does not define. The invariant bounds what each rule reads: a payload span lies
in the input, and `M_NREG` is at most `CATALOG_REGS`. -/

section
variable {s : State}

/-- A command whose parts never stop the model goes on. -/
theorem Run.Ensures.finish_goesOn {goes ends : State → Prop} {r : Run} (h : r.Ensures goes ends False) :
    goesOn r.finish := by
  cases r with
  | go t => exact ⟨_, rfl⟩
  | ended t => exact ⟨t, rfl⟩
  | fault e => exact h.elim

theorem Answers.goesOn {P : State → Prop} {o : Host.Outcome State Fault Refusal} (h : Answers P o) :
    Machine.goesOn o := by
  obtain ⟨t, ht, -⟩ := h
  exact ⟨t, ht⟩

/-- The usual shape of a command: it raises, or it goes on as a whole. -/
theorem raiseOr_goesOn {c : Prop} [Decidable c] {e : ErrorName} {pos ent : Nat}
    {o : Host.Outcome State Fault Refusal} (h : ¬ c → goesOn o) :
    goesOn (if c then (raise e pos ent s).finish else o) := by
  split
  case isTrue => exact ⟨_, rfl⟩
  case isFalse hc => exact h hc

theorem execRd_goesOn (a : Byte) : goesOn (execRd a s) := by
  rw [execRd]
  split
  · exact ⟨_, rfl⟩
  · exact ⟨_, rfl⟩

theorem execWr_goesOn (r : Byte) (v : Word) : goesOn (execWr r v s) := by
  refine raiseOr_goesOn fun _ => raiseOr_goesOn fun _ => ?_
  split
  · exact ⟨_, rfl⟩
  · exact ⟨_, rfl⟩

theorem execEnvBuild_goesOn (a : Word) : goesOn (execEnvBuild a s) := by
  rw [execEnvBuild]
  split
  · exact ⟨_, rfl⟩
  · exact ⟨_, rfl⟩

/-- A read-out command bounds its index by the length of the buffer it reads (R157 to R159). -/
theorem readByteOut_goesOn (b : Buffer) (a : Nat) : goesOn (readByteOut s b a (s.bufferLength b)).finish :=
  Run.Ensures.finish_goesOn (goes := fun _ => True) (ends := fun _ => True)
    (readByteOut_ensures (Nat.lt_irrefl _) trivial fun _ => trivial)

/-- A command that tests its range against the buffer's length reads inside it (R135, R144, R160). -/
theorem memRead_goesOn {b : Buffer} {off n : Nat} (h : off + n ≤ s.bufferLength b) (f : List Byte → State) :
    goesOn (memRead s b off n fun bytes => .go (f bytes)).finish := by
  rw [memRead_of_le h]
  exact ⟨_, rfl⟩

/-- The shape of a register view: past `M_NREG` it raises (R205 to R207). -/
theorem view_goesOn {c : Prop} [Decidable c] (a : Nat) {r : Run} (h : ¬ c → goesOn r.finish) :
    goesOn (if c then viewError a s else r).finish := by
  rw [finish_ite]
  exact raiseOr_goesOn h

/-- An element of the catalog can be read (R36). -/
theorem regRead_goesOn {i : Nat} (h : i < s.cfg.catalogRegs) {next : Half → Run} (hn : ∀ v, goesOn (next v).finish) :
    goesOn (regRead s i next).finish := by
  rw [regRead_of_lt h]
  exact hn _

/-- Each command goes on; a wire row is several. -/
theorem MachineInv.command_goesOn (h : MachineInv s) {i : Instr} (hw : isWireRow i = false) : goesOn (exec i s) := by
  obtain ⟨hc, -, -, -, he, hm⟩ := (machineInv_iff s).1 h
  have hregs := hm.registersFit
  cases i with
  | nop | reset | clrerr | ibClr | crcInit | crcUpd | sumInit | sumUpd | mbReq => exact ⟨_, rfl⟩
  | rd a => exact execRd_goesOn a
  | wr r v => exact execWr_goesOn r v
  | ibLoad data => exact raiseOr_goesOn fun _ => ⟨_, rfl⟩
  | rdi a => exact readByteOut_goesOn .ibuf a.toNat
  | rdo a => exact readByteOut_goesOn .obuf a.toNat
  | rdp a => exact readByteOut_goesOn .pbuf a.toNat
  | rdd a => exact raiseOr_goesOn fun hl => memRead_goesOn (b := .eData) (Nat.not_le.1 hl) _
  | crcBuf a b => exact raiseOr_goesOn fun hl => memRead_goesOn (b := .ibuf) (Nat.not_lt.1 hl) _
  | sumBuf a b => exact raiseOr_goesOn fun hl => memRead_goesOn (b := .ibuf) (Nat.not_lt.1 hl) _
  | epRun => exact (execEpRun_answers s).goesOn
  | envBuild a => exact execEnvBuild_goesOn a
  | mpCmd a => exact (execMpCmd_answers hc he hm a).goesOn
  | mpRsp a => exact (execMpRsp_answers hc he hm a).goesOn
  | fxU16 a => exact view_goesOn _ fun _ => regRead_goesOn (by omega) fun _ => ⟨_, rfl⟩
  | fxS16 a => exact view_goesOn _ fun _ => regRead_goesOn (by omega) fun _ => ⟨_, rfl⟩
  | fxD32 a =>
    exact view_goesOn _ fun _ => regRead_goesOn (by omega) fun _ => regRead_goesOn (by omega) fun _ => ⟨_, rfl⟩
  | _ => cases hw

/-- A sequence of commands goes on: each leaves the invariant to the next. -/
theorem MachineInv.runSeq_goesOn (h : MachineInv s) {is : List Instr} (hw : ∀ i ∈ is, isWireRow i = false) :
    goesOn (runSeq is s) := by
  induction is generalizing s with
  | nil => exact ⟨s, rfl⟩
  | cons i rest ih =>
    obtain ⟨hwi, hrest⟩ := List.forall_mem_cons.1 hw
    obtain ⟨u, hu⟩ := h.command_goesOn hwi
    rw [runSeq, hu, afterNext_next]
    exact ih (h.after_command hwi hu) hrest

/-- A message is `IB.CLR`, the loads and one parser (R102, R263). -/
theorem MachineInv.message_goesOn (h : MachineInv s) (bytes : List Byte) {last : Instr}
    (hlast : isWireRow last = false) : goesOn (afterNext (setInput bytes s) (exec last)) := by
  rw [setInput_eq_runSeq]
  exact h.runSeq_goesOn (List.forall_mem_append.2
    ⟨List.forall_mem_cons.2 ⟨rfl, List.forall_mem_map.2 fun _ _ => rfl⟩, List.forall_mem_singleton.2 hlast⟩)

theorem MachineInv.handOver_goesOn (h : MachineInv s) (kind : MessageKind) (bytes : List Byte) :
    goesOn (handOver kind bytes s) := by
  cases kind with
  | frame => exact h.message_goesOn bytes (last := .epRun) rfl
  | request => exact h.message_goesOn bytes (last := .mpCmd 1) rfl
  | response => exact h.message_goesOn bytes (last := .mpRsp 1) rfl

theorem MachineInv.exec_goesOn (h : MachineInv s) (i : Instr) : goesOn (exec i s) := by
  cases hw : isWireRow i with
  | false => exact h.command_goesOn hw
  | true =>
    obtain ⟨kind, he⟩ := exec_wireRow hw s
    exact he ▸ h.handOver_goesOn kind (encode i)

/-- What does not decode stops nothing either (R94, R260; log entry 7). -/
theorem MachineInv.serveOther_goesOn (h : MachineInv s) (input : HostInput) : goesOn (serveOther input s) := by
  cases input with
  | command bytes => exact ⟨_, rfl⟩
  | message kind bytes => exact h.handOver_goesOn kind bytes
  | resetInput => exact ⟨_, rfl⟩

end

/-- Settles O52: with nothing queued the FCB waits; else it runs an instruction or serves an input that does not
decode. -/
theorem noStepStopsTheMachine : Obligations.NoStepStopsTheMachine := by
  intro s h
  cases hp : s.pending with
  | nil => exact ⟨s, step_idle hp⟩
  | cons input queue =>
    have hq := h.withPending queue
    cases hd : decodeInput input with
    | ok i => exact step_decoded hp hd ▸ hq.exec_goesOn i
    | error why => exact step_other hp hd ▸ hq.serveOther_goesOn input

/-! ## The system commands (R150 to R154) -/

section
variable (s : State)

theorem exec_nop : exec .nop s = .next { s with outcome := some .ok } := rfl

theorem exec_reset :
    exec .reset s = .next { State.reset with cfg := s.cfg, pending := s.pending, outcome := some .ok } := rfl

theorem exec_clrerr : exec .clrerr s = .next { s with err := 0, errPos := 0, errEnt := 0, outcome := some .ok } := rfl

end

/-- Settles O2: a queued `RESET` runs over the rest of the queue, and the reset input answers before any command. -/
theorem resetCommandAndResetInputAgree : Obligations.ResetCommandAndResetInputAgree := fun s queue =>
  ⟨exec_reset s,
    step_other (s := s.withPending (.resetInput :: queue)) rfl (why := .resetInput) rfl,
    (step_decoded (s := s.withPending (.command [0x01] :: queue)) rfl (i := .reset) rfl).trans (exec_reset _)⟩

/-- Settles O3. -/
theorem nopAndClrerrChangeNothingElse : Obligations.NopAndClrerrChangeNothingElse :=
  ⟨rfl, rfl, fun s => ⟨exec_nop s, exec_clrerr s⟩⟩

section
variable {s : State}

/-- The state after a command that has written the read latch and nothing else. -/
def State.latched (s : State) (v : Word) : State := { s with rdata := v, outcome := some .ok }

/-- `RD` of a number that names a register (R153). -/
theorem exec_rd_of_some {a : Byte} {v : Word} (h : s.scalar a = some v) : exec (.rd a) s = .next (s.latched v) := by
  show execRd a s = _
  rw [execRd, h]
  rfl

end

/-- Settles O4: the table of R21, number by number; `E_SER` has the width of `RDATA` already. -/
theorem rdReturnsEachScalarRegister : Obligations.RdReturnsEachScalarRegister := by
  refine ⟨fun _ => rfl, fun s => ?_⟩
  have hserial : s.scalar 0x14 = some s.eSer := congrArg some (BitVec.setWidth_eq s.eSer)
  have hother (a : Byte)
      (h : (0x0C ≤ a.toNat ∧ a.toNat ≤ 0x0F) ∨ (0x1C ≤ a.toNat ∧ a.toNat ≤ 0x1F) ∨ 0x2B ≤ a.toNat) :=
    (unimplementedNumbersAreIllegal s a 0 h).1
  have hreads {a : Byte} {v : Word} (h : s.scalar a = some v) := exec_rd_of_some h
  exact ⟨hreads rfl, hreads rfl, hreads rfl, hreads rfl, hreads rfl, hreads rfl, hreads rfl, hreads rfl, hreads rfl,
    hreads rfl, hreads rfl, hreads rfl, hreads rfl, hreads rfl, hreads rfl, hreads rfl, hreads hserial, hreads rfl,
    hreads rfl, hreads rfl, hreads rfl, hreads rfl, hreads rfl, hreads rfl, hreads rfl, hreads rfl, hreads rfl,
    hreads rfl, hreads rfl, hreads rfl, hreads rfl, hreads rfl, hreads rfl, hreads rfl, hreads rfl, hother⟩

section
variable (s : State) {r : Byte} {v : Word}

/-- A value that fits its 16-bit register (R154). -/
theorem exec_wr_of_le (h : v.toNat ≤ 0xFFFF) :
    exec (.wr 0x06 v) s = .next { s with cnt := BitVec.ofNat 16 v.toNat, outcome := some .ok } ∧
    exec (.wr 0x07 v) s = .next { s with ctrl := BitVec.ofNat 16 v.toNat, outcome := some .ok } :=
  ⟨if_neg (Nat.not_lt.2 h), if_neg (Nat.not_lt.2 h)⟩

/-- A value that does not fit its 16-bit register (R154, R232). -/
theorem exec_wr_of_gt (h : 0xFFFF < v.toNat) (hr : r = 0x06 ∨ r = 0x07) :
    exec (.wr r v) s = .next (s.failed .outOfRange 0 r.toNat) := by
  have hwritable : ¬ (r ≠ 0x06 ∧ r ≠ 0x07) := by tauto
  exact (if_neg hwritable).trans (if_pos h)

/-- The register check comes first, whatever the value (R154, R232). -/
theorem exec_wr_readOnly (hcnt : r ≠ 0x06) (hctrl : r ≠ 0x07) :
    exec (.wr r v) s = .next (s.failed .illegalCommand 0 0x04) :=
  if_pos ⟨hcnt, hctrl⟩

end

/-- Settles O6. -/
theorem wrWritesOnlyCounterAndControl : Obligations.WrWritesOnlyCounterAndControl :=
  ⟨fun _ _ _ _ _ => rfl, fun s _ _ =>
    ⟨exec_wr_of_le s, fun h => ⟨exec_wr_of_gt s h (.inl rfl), exec_wr_of_gt s h (.inr rfl)⟩, exec_wr_readOnly s⟩⟩

/-! ## The input buffer (R155, R156) -/

/-- `IB.CLR` and a successful `IB.LOAD` change three bits of `STATUS` and nothing else of what they leave. -/
theorem staleSpans_eq (s : State) : s.staleSpans = { s with status := s.status &&& 0xF4 } := by
  rw [← State.status_staleSpans]
  rfl

/-- Settles O7. -/
theorem ibClrEmptiesTheInput : Obligations.IbClrEmptiesTheInput := by
  refine ⟨rfl, fun s => ?_⟩
  show execIbClr s = _
  rw [execIbClr, completed_eq, staleSpans_eq]
  rfl

/-- Settles O8: what fits is written as one range behind the bytes that are there. -/
theorem ibLoadAppendsWholeOrNotAtAll : Obligations.IbLoadAppendsWholeOrNotAtAll := by
  refine ⟨fun n d h => if_pos h, fun s d hwf hmax hfits => ?_, fun s d h => if_pos h⟩
  refine ⟨s.appended d, execIbLoad_appended hfits, ?_, fun i hi => ?_, fun a ha => ?_, rfl⟩
  · exact Nat.mod_eq_of_lt (by omega)
  · rw [← List.getD_eq_getElem d 0 hi]
    exact Mem.read_writeRange_same s.ibuf hwf s.ilen.toNat d i 0 hi
  · exact Mem.read_writeRange_other s.ibuf s.ilen.toNat d a ha

/-! ## The read-out commands (R157 to R160) -/

section
variable (s : State)

/-- A read-out command whose index is bounded by the length of its buffer (R157 to R159). -/
theorem readByteOut_finish (b : Buffer) (a : Nat) :
    (readByteOut s b a (s.bufferLength b)).finish =
      if a < s.bufferLength b then .next (s.latched (zext32 (Mem.read (s.bufferOf b) a)))
      else .next (s.failed .truncatedInput a 0) := by
  split
  case isTrue h => rw [readByteOut_of_lt h h]; rfl
  case isFalse h => rw [readByteOut_of_ge (Nat.not_lt.1 h)]; rfl

/-- `PBUF` has its eight bytes once a request has been built (R159). -/
theorem lt_bufferLength_pbuf_iff (a : Nat) : a < s.bufferLength .pbuf ↔ s.flag .pbValid = true ∧ a < 8 := by
  cases hf : s.flag .pbValid <;> simp [State.bufferLength, hf]

/-- `RDD` reads the data field's elements (R160). -/
theorem exec_rdd (a : Byte) :
    exec (.rdd a) s =
      if a.toNat < s.cfg.dataLen then .next (s.latched (zext32 (Mem.read s.eData a.toNat)))
      else .next (s.failed .illegalCommand 0 0x0D) := by
  show execRdd a s = _
  rw [execRdd]
  split
  case isTrue h => rw [if_neg (Nat.not_lt.2 h)]; rfl
  case isFalse h =>
    rw [memRead_of_le (b := .eData) (Nat.not_le.1 h), if_pos (Nat.not_le.1 h)]
    rfl

end

/-- Settles O9. -/
theorem readOutCommandsFollowTheirRules : Obligations.ReadOutCommandsFollowTheirRules := by
  refine ⟨fun _ _ => ⟨rfl, rfl, rfl, rfl⟩, fun s => ⟨fun a => readByteOut_finish s .ibuf a.toNat,
    fun a => readByteOut_finish s .obuf a.toNat, fun a => ?_, fun a hlen => ?_⟩⟩
  · refine (readByteOut_finish s .pbuf a.toNat).trans ?_
    simp only [lt_bufferLength_pbuf_iff]
    rfl
  · rw [exec_rdd, Config.dataLen, hlen]
    rfl

end Sys2Proof.Machine

/-! What 43_envelope.md says of the envelope parser (R170 to R183) and assembler (R184, R185), and the round trip of a
frame that the FCB has built (R184, R190 against R171 to R202). -/

namespace Sys2Proof.Machine

/-- Setting a flag sets its bit of `STATUS` (R25). -/
theorem setFlag_true (s : State) (f : Flag) : s.setFlag f true = { s with status := s.status ||| f.mask } := rfl

/-- The payload begins behind the 15-byte data field (R170). -/
theorem payloadOffset_eq {c : Config} (hc : c.dataLen = 15) : c.payloadOffset = 26 := congrArg (hdrLen + ·) hc

/-! ## The header, entry by entry (R172 to R177) -/

/-- The offset of entry `k`, up to the payload (R170). -/
def entryOffset (c : Config) : Nat → Nat
  | 0 => 0
  | 1 => 1
  | 2 => 3
  | 3 => 5
  | 4 => 7
  | 5 => 11
  | _ => c.payloadOffset

theorem entryOffset_le_succ (c : Config) (k : Nat) : entryOffset c k ≤ entryOffset c (k + 1) := by
  have hp : 11 ≤ c.payloadOffset := Nat.le_add_right ..
  match k with
  | 0 | 1 | 2 | 3 | 4 => simp [entryOffset]
  | 5 => exact hp
  | k + 6 => exact Nat.le_refl _

/-- A buffer that ends before the payload ends inside some entry. -/
theorem exists_entry_of_lt {c : Config} {n : Nat} (h : n < c.payloadOffset) :
    ∃ k < 6, entryOffset c k ≤ n ∧ n < entryOffset c (k + 1) := by
  obtain ⟨k, hk, hk'⟩ := Nat.exists_not_and_succ_of_not_zero_of_exists (p := fun k => n < entryOffset c k)
    (Nat.not_lt_zero n) ⟨6, h⟩
  refine ⟨k, Nat.lt_of_not_le fun h6 => hk ?_, Nat.not_lt.1 hk, hk'⟩
  obtain ⟨j, rfl⟩ := Nat.exists_eq_add_of_le' h6
  exact h

/-- The state with the first `k` entries decoded, up to the data field, and none after them (R171 to R177). -/
def State.envelopeHead (s : State) (k : Nat) : State :=
  { s with
    status := s.status &&& 0xF8
    eState := BitVec.ofNat 8 (k + 1), eNent := BitVec.ofNat 8 k
    eStart := if 0 < k then startDelim else 0
    eLen := if 1 < k then ofLE16 (Mem.readRange s.ibuf 1 2) else 0
    eCtrl := if 2 < k then ofBE16 (Mem.readRange s.ibuf 3 2) else 0
    eCnt := if 3 < k then ofBE16 (Mem.readRange s.ibuf 5 2) else 0
    eSer := if 4 < k then ofLE32 (Mem.readRange s.ibuf 7 4) else 0
    eData := if 5 < k then Mem.writeRange [] 0 (Mem.readRange s.ibuf 11 s.cfg.dataLen) else []
    ePoff := 0, ePlen := 0, eChk := 0, eEnd := 0, eToff := 0, eTlen := 0 }

/-- What `EP.RUN` clears before it reads anything (R171). -/
theorem envelopeClear_eq_head (s : State) : s.envelopeClear = s.envelopeHead 0 := by
  rw [State.envelopeHead, ← status_envelopeClear]
  rfl

theorem envelopeHeader_eq_head (s : State) : s.envelopeHeader = s.envelopeHead 6 := by
  rw [State.envelopeHeader, envelopeClear_eq_head]
  rfl

section
variable {s : State} {k : Nat}

/-- An entry that is there whole is decoded (R172 to R177). -/
theorem runAll_envelopeHead_go (hk : k < 6) (h : entryOffset s.cfg (k + 1) ≤ s.ilen.toNat)
    (hb : Mem.read s.ibuf 0 = startDelim) :
    runAll (envelopeStates.drop k) (s.envelopeHead k) =
      runAll (envelopeStates.drop (k + 1)) (s.envelopeHead (k + 1)) := by
  match k, hk with
  | 0, _ => exact congrArg (Run.andThen · _) (envelopeStart_go (s := s.envelopeHead 0) h hb)
  | 1, _ => exact congrArg (Run.andThen · _) (envelopeLength_go (s := s.envelopeHead 1) h)
  | 2, _ => exact congrArg (Run.andThen · _) (envelopeControl_go (s := s.envelopeHead 2) h)
  | 3, _ => exact congrArg (Run.andThen · _) (envelopeCounter_go (s := s.envelopeHead 3) h)
  | 4, _ => exact congrArg (Run.andThen · _) (envelopeSerial_go (s := s.envelopeHead 4) h)
  | 5, _ => exact congrArg (Run.andThen · _) (envelopeData_go (s := s.envelopeHead 5) h)

/-- An entry that is not there whole ends the parse (R172 to R177, R222). -/
theorem runAll_envelopeHead_short (hk : k < 6) (h : s.ilen.toNat < entryOffset s.cfg (k + 1)) :
    runAll (envelopeStates.drop k) (s.envelopeHead k) =
      raise .truncatedInput (entryOffset s.cfg k) k (s.envelopeHead k) := by
  match k, hk with
  | 0, _ => exact congrArg (Run.andThen · _) (envelopeStart_short (s := s.envelopeHead 0) h)
  | 1, _ => exact congrArg (Run.andThen · _) (envelopeLength_short (s := s.envelopeHead 1) h)
  | 2, _ => exact congrArg (Run.andThen · _) (envelopeControl_short (s := s.envelopeHead 2) h)
  | 3, _ => exact congrArg (Run.andThen · _) (envelopeCounter_short (s := s.envelopeHead 3) h)
  | 4, _ => exact congrArg (Run.andThen · _) (envelopeSerial_short (s := s.envelopeHead 4) h)
  | 5, _ => exact congrArg (Run.andThen · _) (envelopeData_short (s := s.envelopeHead 5) h)

/-- `EP.RUN` from the first entry that may not be there whole (R171). -/
theorem execEpRun_eq_runAll_head (hk : k ≤ 6) (h : entryOffset s.cfg k ≤ s.ilen.toNat)
    (hb : 0 < k → Mem.read s.ibuf 0 = startDelim) :
    exec .epRun s = (runAll (envelopeStates.drop k) (s.envelopeHead k)).finish := by
  induction k with
  | zero =>
    show (runAll envelopeStates s.envelopeClear).finish = _
    rw [envelopeClear_eq_head, List.drop_zero]
  | succ k ih =>
    rw [ih (by omega) ((entryOffset_le_succ s.cfg k).trans h) fun _ => hb k.succ_pos,
      runAll_envelopeHead_go hk h (hb k.succ_pos)]

/-- `EP.RUN` on a buffer that ends inside entry `k` of the header or the data field (R172 to R177, R222, R234). -/
theorem execEpRun_short (hk : k < 6) (h : entryOffset s.cfg k ≤ s.ilen.toNat)
    (hs : s.ilen.toNat < entryOffset s.cfg (k + 1)) (hb : 0 < k → Mem.read s.ibuf 0 = startDelim) :
    exec .epRun s = .next ((s.envelopeHead k).reported .truncatedInput (entryOffset s.cfg k) k
      (.error .truncatedInput)) := by
  rw [execEpRun_eq_runAll_head hk.le h hb, runAll_envelopeHead_short hk hs]
  rfl

end

/-- Settles O22: the first entry that is not there whole is found by the length of the input. -/
theorem epRunTruncatedInTheHeader : Obligations.EpRunTruncatedInTheHeader := by
  intro s hc hlen hb n k pos
  have hoff : s.cfg.payloadOffset = 26 := payloadOffset_eq hc
  have hentry : k < 6 ∧ pos = entryOffset s.cfg k ∧ pos ≤ n ∧ n < entryOffset s.cfg (k + 1) ∧ (0 < k → 0 < n) := by
    change n < 26 at hlen
    simp only [k, pos]
    split_ifs <;> simp [entryOffset] <;> omega
  obtain ⟨hk, hpos, hle, hlt, hpositive⟩ := hentry
  refine ⟨_, execEpRun_short hk (hpos ▸ hle) hlt (hb ∘ hpositive), fun i => ?_, ?_⟩
  · show Mem.read (if 5 < k then _ else []) i = 0
    rw [if_neg (by omega)]
    rfl
  · rw [← hpos]
    rfl

/-! ## A frame by its fields (R170 to R181) -/

/-- The header and the data field of a frame (R170). -/
structure FrameHeader where
  len : Half
  ctrl : Half
  cnt : Half
  ser : Word
  data : List Byte

/-- The bytes of the header after the start delimiter, and the data field. -/
def FrameHeader.bytes (f : FrameHeader) : List Byte := le16 f.len ++ be16 f.ctrl ++ be16 f.cnt ++ le32 f.ser ++ f.data

/-- An input that begins with the start delimiter, this header and this data field. -/
def FrameHeader.input (f : FrameHeader) (rest : List Byte) : List Byte := startDelim :: (f.bytes ++ rest)

section
variable {f : FrameHeader} (hd : f.data.length = 15) (rest : List Byte)

theorem slice_input_header : slice (f.input rest) 1 2 = le16 f.len ∧ slice (f.input rest) 3 2 = be16 f.ctrl ∧
    slice (f.input rest) 5 2 = be16 f.cnt ∧ slice (f.input rest) 7 4 = le32 f.ser :=
  ⟨rfl, rfl, rfl, rfl⟩

include hd

theorem length_input : (f.input rest).length = 26 + rest.length := by
  simp [FrameHeader.input, FrameHeader.bytes, hd]
  omega

theorem slice_input_data : slice (f.input rest) 11 15 = f.data := by
  show ((f.data ++ rest).take 15) = f.data
  rw [← hd, List.take_left]

theorem slice_input_covered {payload : List Byte} (more : List Byte) :
    slice (f.input (payload ++ more)) 1 (25 + payload.length) = f.bytes ++ payload := by
  have hlen : (f.bytes ++ payload).length = 25 + payload.length := by
    simp [FrameHeader.bytes, hd]
    omega
  rw [slice, FrameHeader.input, List.drop_one, List.tail_cons, ← List.append_assoc, ← hlen, List.take_left]

theorem byteAt_input (i : Nat) : byteAt (f.input rest) (26 + i) = byteAt rest i := by
  have hdrop : (f.input rest).drop 26 = rest := by
    show ((f.data ++ rest).drop 15) = rest
    rw [← hd, List.drop_left]
  rw [← byteAt_drop, hdrop]

end

/-- The state of a parse with the first `k` entries of the frame decoded, the data field among them (R171 to R180). -/
def State.decoded (s : State) (f : FrameHeader) (k : Nat) (flags : Byte) (poff plen : Half) (chk sum : Byte) : State :=
  { s with
    status := (s.status &&& 0xF8) ||| flags
    sum := sum, eState := BitVec.ofNat 8 (k + 1), eNent := BitVec.ofNat 8 k
    eStart := startDelim, eLen := f.len, eCtrl := f.ctrl, eCnt := f.cnt, eSer := f.ser
    eData := Mem.writeRange [] 0 f.data
    ePoff := poff, ePlen := plen, eChk := chk, eEnd := 0, eToff := 0, eTlen := 0 }

/-- The data field of a decoded frame. -/
theorem read_decoded_data {data : List Byte} (hd : data.length = 15) :
    (∀ (i : Nat) (h : i < data.length), Mem.read (Mem.writeRange [] 0 data) i = data[i]) ∧
      ∀ i, 15 ≤ i → Mem.read (Mem.writeRange [] 0 data) i = 0 :=
  ⟨fun _ h => Mem.read_writeRange_empty data h, fun _ h => Mem.read_writeRange_other _ _ _ _ (.inr (by omega))⟩

section
variable {s : State} {f : FrameHeader} {rest : List Byte} (hc : s.cfg.dataLen = 15) (hd : f.data.length = 15)
variable (hin : s.holdsInput (f.input rest))
include hc hd hin

/-- The header and the data field decoded (R172 to R177). -/
theorem envelopeHeader_of_input : s.envelopeHeader = s.decoded f 6 0x00 0 0 0x00 s.sum := by
  have hlen := length_input hd rest
  obtain ⟨hlength, hctrl, hcnt, hser⟩ := slice_input_header (f := f) rest
  have hflags : (s.status &&& 0xF8) ||| 0x00 = s.status &&& (0xF8 : Byte) := BitVec.or_zero
  rw [envelopeHeader_eq_head, State.envelopeHead, hc, hin.readRange_eq (by omega), hin.readRange_eq (by omega),
    hin.readRange_eq (by omega), hin.readRange_eq (by omega), hin.readRange_eq (by omega), hlength,
    hctrl, hcnt, hser, slice_input_data hd, ofLE16_le16, ofBE16_be16, ofBE16_be16, ofLE32_le32, State.decoded,
    hflags]
  rfl

/-- `EP.RUN` on an input whose header and data field are whole goes on to the payload (R171 to R177). -/
theorem execEpRun_of_input :
    exec .epRun s = ((envelopePayload (s.decoded f 6 0x00 0 0 0x00 s.sum)).andThen fun s =>
      (envelopeChecksum s).andThen fun s => (envelopeEnd s).andThen fun s => (envelopeDone s).andThen .go).finish := by
  have hlen := length_input hd rest
  have hoff : s.cfg.payloadOffset = 26 := payloadOffset_eq hc
  have hstart : Mem.read s.ibuf 0 = startDelim := hin.read_eq (by omega)
  rw [execEpRun_header (by rw [hoff, hin.1, hlen]; omega) hstart, envelopeHeader_of_input hc hd hin]

end

section
variable {s : State} {f : FrameHeader} {n : Nat} (hc : s.cfg.dataLen = 15) (hn : f.len.toNat = 15 + n)
variable {k : Nat} {flags chk sum : Byte} {poff plen : Half}

include hc hn in
/-- The payload's length is the length field less the bias (R178). -/
theorem decoded_payloadLen : (s.decoded f k flags poff plen chk sum).payloadLen = n := by
  show f.len.toNat - s.cfg.dataLen = n
  omega

include hc hn in
/-- The payload's extent is stored (R178). -/
theorem envelopeSpanned_decoded : (s.decoded f 6 0x00 0 0 0x00 sum).envelopeSpanned =
    s.decoded f 7 0x02 26 (BitVec.ofNat 16 n) 0x00 sum := by
  have hoff : s.cfg.payloadOffset = 26 := payloadOffset_eq hc
  have hflags (x : Byte) : (x ||| 0x00) ||| Flag.eHaspl.mask = x ||| 0x02 := BitVec.or_assoc x 0x00 0x02
  rw [State.envelopeSpanned, decoded_payloadLen hc hn, State.decoded, hoff, setFlag_true, hflags]
  rfl

end

/-- The byte after a string of known length. -/
theorem byteAt_append_cons (left right : List Byte) (b : Byte) : byteAt (left ++ b :: right) left.length = b := by
  simp [byteAt]

/-- `CHK_BAD` is set or cleared where `E_HASPL` is set (R179). -/
theorem status_chkBad (x check chk : Byte) :
    (if check != chk then ((x &&& 0xF8) ||| 0x02) ||| Flag.chkBad.mask
      else ((x &&& 0xF8) ||| 0x02) &&& ~~~Flag.chkBad.mask) =
      (x &&& 0xF8) ||| (if check = chk then 0x02 else 0x06) := by
  obtain rfl | hbad := eq_or_ne check chk
  · rw [if_neg (by simp), if_pos rfl, BitVec.and_or_distrib_right, BitVec.and_assoc]
    rfl
  · rw [if_pos (bne_iff_ne.2 hbad), if_neg hbad, BitVec.or_assoc]
    rfl

section
variable {s : State} {f : FrameHeader} {payload more : List Byte} {chk : Byte} {sum : Byte}
variable (hc : s.cfg.dataLen = 15) (hd : f.data.length = 15) (hn : f.len.toNat = 15 + payload.length)
variable (hin : s.holdsInput (f.input (payload ++ chk :: more)))
include hc hd hn hin

/-- The checksum byte is decoded and checked (R179). -/
theorem envelopeChecked_decoded :
    (s.decoded f 7 0x02 26 (BitVec.ofNat 16 payload.length) 0x00 sum).envelopeChecked =
      s.decoded f 8 (if sum8 (f.bytes ++ payload) = chk then 0x02 else 0x06) 26 (BitVec.ofNat 16 payload.length) chk
        (sum8 (f.bytes ++ payload)) := by
  have hoff : s.cfg.payloadOffset = 26 := payloadOffset_eq hc
  have hlen := length_input hd (payload ++ chk :: more)
  rw [List.length_append, List.length_cons] at hlen
  have hchk : Mem.read s.ibuf (26 + payload.length) = chk := by
    rw [hin.read_eq (by omega), byteAt_input hd, byteAt_append_cons]
  have hsum : (s.decoded f 7 0x02 26 (BitVec.ofNat 16 payload.length) 0x00 sum).envelopeSum =
      sum8 (f.bytes ++ payload) := by
    rw [State.envelopeSum, decoded_payloadLen hc hn, ← slice_input_covered hd (chk :: more),
      ← hin.readRange_eq (by omega)]
    show sum8 (Mem.readRange s.ibuf 1 (s.cfg.payloadOffset - 1 + payload.length)) = _
    rw [hoff]
  rw [State.envelopeChecked, hsum, decoded_payloadLen hc hn, State.decoded, hoff, State.setFlag, State.envelopeAt]
  dsimp only
  rw [hchk, status_chkBad]
  rfl

end

/-! ## Where the parse stops after the data field (R178 to R180) -/

section
variable {s : State} {f : FrameHeader} {rest : List Byte} (hc : s.cfg.dataLen = 15) (hd : f.data.length = 15)
variable (hin : s.holdsInput (f.input rest))
include hc hd hin

/-- A length field below the bias (R178, R225). -/
theorem execEpRun_smallLength (hsmall : f.len.toNat < 15) :
    exec .epRun s = .next ((s.decoded f 6 0x00 0 0 0x00 s.sum).reported .malformedSchema 26 6
      (.error .malformedSchema)) := by
  have hoff : s.cfg.payloadOffset = 26 := payloadOffset_eq hc
  have hbias : f.len.toNat < s.cfg.dataLen := by omega
  rw [execEpRun_of_input hc hd hin, envelopePayload_small (s := s.decoded f 6 0x00 0 0 0x00 s.sum) hbias, ← hoff]
  rfl

variable {n : Nat} (hn : f.len.toNat = 15 + n)
include hn

/-- A payload that is not there whole (R178, R222). -/
theorem execEpRun_payloadShort (hshort : rest.length < n) :
    exec .epRun s = .next ((s.decoded f 6 0x00 0 0 0x00 s.sum).reported .truncatedInput 26 6
      (.error .truncatedInput)) := by
  have hoff : s.cfg.payloadOffset = 26 := payloadOffset_eq hc
  have hbias : s.cfg.dataLen ≤ f.len.toNat := by omega
  have hlen : s.ilen.toNat < s.cfg.payloadOffset + n := by rw [hin.1, length_input hd, hoff]; omega
  rw [execEpRun_of_input hc hd hin, envelopePayload_short (s := s.decoded f 6 0x00 0 0 0x00 s.sum) hbias
    (by rwa [decoded_payloadLen hc hn]), ← hoff]
  rfl

/-- `EP.RUN` goes on to the checksum byte where the payload is there whole (R178). -/
theorem execEpRun_of_payload (hwhole : n ≤ rest.length) :
    exec .epRun s = ((envelopeChecksum (s.decoded f 7 0x02 26 (BitVec.ofNat 16 n) 0x00 s.sum)).andThen fun s =>
      (envelopeEnd s).andThen fun s => (envelopeDone s).andThen .go).finish := by
  have hoff : s.cfg.payloadOffset = 26 := payloadOffset_eq hc
  have hbias : s.cfg.dataLen ≤ f.len.toNat := by omega
  have hlen : s.cfg.payloadOffset + n ≤ s.ilen.toNat := by rw [hin.1, length_input hd, hoff]; omega
  rw [execEpRun_of_input hc hd hin, envelopePayload_go (s := s.decoded f 6 0x00 0 0 0x00 s.sum) hbias
    (by rwa [decoded_payloadLen hc hn]), andThen_go, envelopeSpanned_decoded hc hn]

/-- No checksum byte (R179, R222). -/
theorem execEpRun_noChecksum (hshort : rest.length = n) :
    exec .epRun s = .next ((s.decoded f 7 0x02 26 (BitVec.ofNat 16 n) 0x00 s.sum).reported .truncatedInput (26 + n) 7
      (.error .truncatedInput)) := by
  have hoff : s.cfg.payloadOffset = 26 := payloadOffset_eq hc
  have hlen : s.ilen.toNat < s.cfg.payloadOffset + n + 1 := by rw [hin.1, length_input hd, hoff]; omega
  rw [execEpRun_of_payload hc hd hin hn hshort.ge, envelopeChecksum_short (by rwa [decoded_payloadLen hc hn]),
    decoded_payloadLen hc hn, ← hoff]
  rfl

end

section
variable {s : State} {f : FrameHeader} {payload more : List Byte} {chk : Byte}
variable (hc : s.cfg.dataLen = 15) (hd : f.data.length = 15) (hn : f.len.toNat = 15 + payload.length)
variable (hin : s.holdsInput (f.input (payload ++ chk :: more)))
include hc hd hn hin

/-- `EP.RUN` goes on to the end byte where the checksum byte is there (R179). -/
theorem execEpRun_of_checksum :
    exec .epRun s = ((envelopeEnd (s.decoded f 8 (if sum8 (f.bytes ++ payload) = chk then 0x02 else 0x06) 26
      (BitVec.ofNat 16 payload.length) chk (sum8 (f.bytes ++ payload)))).andThen fun s =>
        (envelopeDone s).andThen .go).finish := by
  have hoff : s.cfg.payloadOffset = 26 := payloadOffset_eq hc
  have hlen : s.cfg.payloadOffset + payload.length + 1 ≤ s.ilen.toNat := by
    rw [hin.1, length_input hd, hoff, List.length_append, List.length_cons]; omega
  rw [execEpRun_of_payload hc hd hin hn (by simp), envelopeChecksum_go (by rwa [decoded_payloadLen hc hn]), andThen_go,
    envelopeChecked_decoded hc hd hn hin]

/-- No end byte (R180, R222). -/
theorem execEpRun_noEnd (hmore : more = []) :
    exec .epRun s = .next ((s.decoded f 8 (if sum8 (f.bytes ++ payload) = chk then 0x02 else 0x06) 26
      (BitVec.ofNat 16 payload.length) chk (sum8 (f.bytes ++ payload))).reported .truncatedInput (27 + payload.length) 8
        (.error .truncatedInput)) := by
  have hoff : s.cfg.payloadOffset + 1 = 27 := congrArg (· + 1) (payloadOffset_eq hc)
  have hlen : s.ilen.toNat < s.cfg.payloadOffset + 1 + payload.length + 1 := by
    rw [hin.1, length_input hd, hoff, hmore, List.length_append, List.length_singleton]; omega
  rw [execEpRun_of_checksum hc hd hn hin, envelopeEnd_short (by rwa [decoded_payloadLen hc hn]),
    decoded_payloadLen hc hn, ← hoff]
  rfl

end

/-- Settles O23: the four places where such an input can end the parse. -/
theorem epRunStopsAtThePayloadOrTheTail : Obligations.EpRunStopsAtThePayloadOrTheTail := by
  intro s len ctrl cnt ser data rest hc hd hin stops
  have hdata := read_decoded_data hd
  have stop {e : ErrorName} {pos k : Nat} {flags : Byte} {poff plen : Half} {chk sum : Byte}
      (h : exec .epRun s = .next ((s.decoded ⟨len, ctrl, cnt, ser, data⟩ k flags poff plen chk sum).reported e pos k
        (.error e))) : stops e pos k flags poff plen chk sum := ⟨_, h, hdata.1, hdata.2, rfl⟩
  have hin' : s.holdsInput (FrameHeader.input ⟨len, ctrl, cnt, ser, data⟩ rest) := hin
  refine ⟨fun hsmall => stop (execEpRun_smallLength hc hd hin' hsmall), fun n hn =>
    ⟨fun hshort => stop (execEpRun_payloadShort hc hd hin' hn hshort),
      fun hshort => stop (execEpRun_noChecksum hc hd hin' hn hshort), fun payload chk hlen hrest => ?_⟩⟩
  subst hlen hrest
  exact stop (execEpRun_noEnd hc hd hn hin' rfl)

/-! ## A frame with both delimiters (R180, R181) -/

/-- The state at the end of a parse that finds both delimiters (R181). -/
def State.framed (s : State) (f : FrameHeader) (flags : Byte) (n trailing : Nat) (chk sum : Byte) : State :=
  { s.decoded f 9 flags 26 (BitVec.ofNat 16 n) chk sum with
    eEnd := endDelim, eToff := BitVec.ofNat 16 (28 + n), eTlen := BitVec.ofNat 16 trailing }

/-- `CHK_BAD` is set where the checksum byte is not the sum (R179). -/
theorem framed_chkBad (s : State) (f : FrameHeader) (n trailing : Nat) (chk sum : Byte) :
    (s.framed f (if sum = chk then 0x03 else 0x07) n trailing chk sum).flag .chkBad = (sum != chk) := by
  show ((s.status &&& 0xF8) ||| (if sum = chk then 0x03 else 0x07) : Byte).getLsbD 2 = _
  obtain rfl | hbad := eq_or_ne sum chk
  · simp
  · simp [hbad]

section
variable {s : State} {f : FrameHeader} {n trailing : Nat}

theorem envelopeFinished_decoded (hc : s.cfg.dataLen = 15) (hn : f.len.toNat = 15 + n)
    (hilen : s.ilen.toNat = 28 + n + trailing) (flags chk sum : Byte) :
    (s.decoded f 8 flags 26 (BitVec.ofNat 16 n) chk sum).envelopeEnded.envelopeFinished =
      s.framed f (flags ||| 0x01) n trailing chk sum := by
  have hoff : s.cfg.payloadOffset + 2 = 28 := congrArg (· + 2) (payloadOffset_eq hc)
  have hflags (x : Byte) : (x ||| flags) ||| Flag.eValid.mask = x ||| (flags ||| 0x01) := BitVec.or_assoc x flags 0x01
  have htrailing : s.ilen.toNat - (28 + n) = trailing := by omega
  rw [State.envelopeFinished, envelopeEnded_payloadLen, decoded_payloadLen hc hn, State.envelopeEnded, State.decoded,
    State.envelopeAt, setFlag_true]
  dsimp only
  rw [hflags, hoff, htrailing]
  rfl

end

section
variable {s : State} {f : FrameHeader} {payload trailing : List Byte} {chk : Byte}
variable (hc : s.cfg.dataLen = 15) (hd : f.data.length = 15) (hn : f.len.toNat = 15 + payload.length)
variable (hin : s.holdsInput (f.input (payload ++ chk :: endDelim :: trailing)))
include hc hd hn hin

/-- `EP.RUN` on a frame with both delimiters (R180, R181). -/
theorem execEpRun_of_delimited :
    exec .epRun s = .next ((s.framed f (if sum8 (f.bytes ++ payload) = chk then 0x03 else 0x07) payload.length
      trailing.length chk (sum8 (f.bytes ++ payload))).closed (sum8 (f.bytes ++ payload) != chk)
      (26 + payload.length) 7) := by
  have hoff : s.cfg.payloadOffset = 26 := payloadOffset_eq hc
  have hilen : s.ilen.toNat = 28 + payload.length + trailing.length := by
    rw [hin.1, length_input hd, List.length_append, List.length_cons, List.length_cons]; omega
  have hwhole : s.cfg.payloadOffset + 1 + payload.length + 1 ≤ s.ilen.toNat := by omega
  have hbyte : byteAt (payload ++ chk :: endDelim :: trailing) (payload.length + 1) = endDelim := by
    simpa using byteAt_append_cons (payload ++ [chk]) trailing endDelim
  have hend : Mem.read s.ibuf (s.cfg.payloadOffset + 1 + payload.length) = endDelim := by
    rw [hin.read_eq (by rw [← hin.1]; omega), hoff, Nat.add_assoc, Nat.add_comm 1, byteAt_input hd, hbyte]
  have hflags : (if sum8 (f.bytes ++ payload) = chk then 0x02 else 0x06) ||| 0x01 =
      if sum8 (f.bytes ++ payload) = chk then 0x03 else (0x07 : Byte) := by
    split <;> rfl
  rw [execEpRun_of_checksum hc hd hn hin, envelopeEnd_go (by rwa [decoded_payloadLen hc hn])
    (by rwa [decoded_payloadLen hc hn]), andThen_go, andThen_go_right, envelopeDone_eq, flagMismatch_or_go_finish,
    envelopeFinished_decoded hc hn hilen, hflags, envelopeEnded_payloadLen, decoded_payloadLen hc hn]
  have hframe := framed_chkBad s f payload.length trailing.length chk (sum8 (f.bytes ++ payload))
  show Host.Outcome.next (State.closed _ _ (s.cfg.payloadOffset + payload.length) 7) = _
  rw [hframe, hoff]

end

/-- Settles O21: by whether the checksum byte is the sum. -/
theorem epRunExtractsEveryField : Obligations.EpRunExtractsEveryField := by
  intro s len ctrl cnt ser data payload trailing chk hc hd hn hin check
  obtain ⟨hdata, hzero⟩ := read_decoded_data hd
  have hin' : s.holdsInput
      (FrameHeader.input ⟨len, ctrl, cnt, ser, data⟩ (payload ++ chk :: endDelim :: trailing)) := by
    simpa only [FrameHeader.input, FrameHeader.bytes, List.append_assoc, List.cons_append, List.nil_append] using hin
  have hrun : exec .epRun s = .next ((s.framed ⟨len, ctrl, cnt, ser, data⟩ (if check = chk then 0x03 else 0x07)
      payload.length trailing.length chk check).closed (check != chk) (26 + payload.length) 7) :=
    execEpRun_of_delimited hc hd hn hin'
  clear_value check
  obtain rfl | hbad := eq_or_ne check chk
  · rw [bne_self_eq_false] at hrun
    simp only [if_true] at hrun ⊢
    exact ⟨_, hrun, hdata, hzero, rfl⟩
  · rw [bne_iff_ne.2 hbad] at hrun
    simp only [if_neg hbad] at hrun ⊢
    exact ⟨_, hrun, hdata, hzero, rfl⟩

/-! ## What a valid parse promises (R183) -/

section
variable {s t : State}

/-- Another start byte ends the parse (R172, R227). -/
theorem execEpRun_badStart (h : 1 ≤ s.ilen.toNat) (hb : Mem.read s.ibuf 0 ≠ startDelim) :
    exec .epRun s = .next (State.reported { s.envelopeClear with eStart := Mem.read s.ibuf 0 } .badDelimiter 0 0
      (.error .badDelimiter)) := by
  rw [execEpRun_eq, envelopeStart_bad (s := s.envelopeClear) h hb]
  rfl

/-- A parse that `EP.RUN` leaves valid has the header and the data field whole. -/
theorem header_whole_of_valid (ht : exec .epRun s = .next t) (hv : t.flag .eValid = true) :
    Mem.read s.ibuf 0 = startDelim ∧ s.cfg.payloadOffset ≤ s.ilen.toNat := by
  have hclear : s.envelopeClear.flag .eValid ≠ true := by simp
  have hhead (k : Nat) : (s.envelopeHead k).flag .eValid = s.envelopeClear.flag .eValid := by
    rw [envelopeClear_eq_head]
    rfl
  by_cases hb : Mem.read s.ibuf 0 = startDelim
  · refine ⟨hb, Nat.le_of_not_lt fun hs => hclear ?_⟩
    obtain ⟨k, hk, hle, hlt⟩ := exists_entry_of_lt hs
    rw [execEpRun_short hk hle hlt fun _ => hb] at ht
    cases ht
    exact (hhead k).symm.trans hv
  · refine absurd ?_ hclear
    rcases Nat.lt_or_ge s.ilen.toNat 1 with hs | h
    · rw [execEpRun_short (k := 0) (by decide) (Nat.zero_le _) hs (fun h => absurd h (by decide))] at ht
      cases ht
      exact (hhead 0).symm.trans hv
    · rw [execEpRun_badStart h hb] at ht
      cases ht
      exact hv

/-- A part that raises leaves no valid parse. -/
theorem not_valid_of_raise {e : ErrorName} {pos ent : Nat} {f : State → Run}
    (ht : ((raise e pos ent s).andThen f).finish = .next t) (hs : s.flag .eValid = false) : t.flag .eValid ≠ true := by
  cases ht
  exact Bool.eq_false_iff.1 hs

section
variable {f : State → Run} (hs : s.flag .eValid = false) (hv : t.flag .eValid = true)
include hs hv

theorem payload_whole_of_valid (ht : ((envelopePayload s).andThen f).finish = .next t) :
    s.cfg.lenBias ≤ s.eLen.toNat ∧ s.cfg.payloadOffset + s.payloadLen ≤ s.ilen.toNat := by
  rcases Nat.lt_or_ge s.eLen.toNat s.cfg.lenBias with hsmall | hbias
  · rw [envelopePayload_small hsmall] at ht
    exact absurd hv (not_valid_of_raise ht hs)
  refine ⟨hbias, Nat.le_of_not_lt fun hshort => ?_⟩
  rw [envelopePayload_short hbias hshort] at ht
  exact not_valid_of_raise ht hs hv

theorem checksum_whole_of_valid (ht : ((envelopeChecksum s).andThen f).finish = .next t) :
    s.cfg.payloadOffset + s.payloadLen + 1 ≤ s.ilen.toNat := by
  refine Nat.le_of_not_lt fun hshort => ?_
  rw [envelopeChecksum_short hshort] at ht
  exact not_valid_of_raise ht hs hv

theorem end_whole_of_valid (ht : ((envelopeEnd s).andThen f).finish = .next t) :
    s.cfg.payloadOffset + 1 + s.payloadLen + 1 ≤ s.ilen.toNat ∧
      Mem.read s.ibuf (s.cfg.payloadOffset + 1 + s.payloadLen) = endDelim := by
  have hwhole : s.cfg.payloadOffset + 1 + s.payloadLen + 1 ≤ s.ilen.toNat := Nat.le_of_not_lt fun hshort => by
    rw [envelopeEnd_short hshort] at ht
    exact not_valid_of_raise ht hs hv
  refine ⟨hwhole, by_contra fun hend => ?_⟩
  rw [envelopeEnd_bad hwhole hend] at ht
  exact not_valid_of_raise ht hs hv

end

/-- A parse that `EP.RUN` leaves valid is one of a whole frame (R178 to R181). -/
theorem frame_whole_of_valid (ht : exec .epRun s = .next t) (hv : t.flag .eValid = true) :
    Mem.read s.ibuf 0 = startDelim ∧ s.cfg.lenBias ≤ s.envelopeHeader.eLen.toNat ∧
      s.cfg.payloadOffset + s.envelopeHeader.payloadLen + 2 ≤ s.ilen.toNat ∧
      Mem.read s.ibuf (s.cfg.payloadOffset + 1 + s.envelopeHeader.payloadLen) = endDelim := by
  obtain ⟨hb, hhead⟩ := header_whole_of_valid ht hv
  rw [execEpRun_header hhead hb] at ht
  obtain ⟨hbias, hpayload⟩ := payload_whole_of_valid (by simp) hv ht
  rw [envelopePayload_go hbias hpayload, andThen_go] at ht
  have hchecksum := checksum_whole_of_valid (by simp) hv ht
  rw [envelopeChecksum_go hchecksum, andThen_go] at ht
  have hend := end_whole_of_valid (by simp) hv ht
  simp only [envelopeChecked_cfg, envelopeSpanned_cfg, envelopeHeader_cfg, envelopeChecked_payloadLen,
    envelopeSpanned_payloadLen, envelopeChecked_ilen, envelopeSpanned_ilen, envelopeHeader_ilen, envelopeChecked_ibuf,
    envelopeSpanned_ibuf, envelopeHeader_ibuf] at hend
  obtain ⟨hwhole, hend⟩ := hend
  exact ⟨hb, hbias, by omega, hend⟩

end

/-- The promises of a valid parse with the 15-byte data field (R183). -/
structure EnvelopePromises (t : State) : Prop where
  ilen : 28 + t.ePlen.toNat ≤ t.ilen.toNat
  eLen : t.eLen.toNat = t.ePlen.toNat + 15
  ePoff : t.ePoff = 26
  eStart : t.eStart = 0xA5
  eEnd : t.eEnd = 0x15
  eNent : t.eNent = 9
  eState : t.eState = 10
  trailing : t.eToff.toNat + t.eTlen.toNat = t.ilen.toNat
  sum : t.sum = sum8 (Mem.readRange t.ibuf 1 (25 + t.ePlen.toNat))
  chkBad : t.flag .chkBad = true ↔ t.sum ≠ t.eChk

/-- The record and the port are no part of them. -/
theorem EnvelopePromises.closed {s : State} (h : EnvelopePromises s) (bad : Bool) (pos ent : Nat) :
    EnvelopePromises (s.closed bad pos ent) := by
  cases bad with
  | true => exact { h with }
  | false => exact { h with }

theorem envelopeParsed_eToff (s : State) : s.envelopeParsed.eToff =
    BitVec.ofNat 16 (s.cfg.payloadOffset + 2 + s.envelopeHeader.payloadLen) := by simp [State.envelopeParsed]

/-- The end of the parse of a whole frame keeps the promises. -/
theorem envelopeParsed_promises {s : State} (hc : s.cfg.dataLen = 15)
    (hbias : s.cfg.lenBias ≤ s.envelopeHeader.eLen.toNat)
    (hwhole : s.cfg.payloadOffset + s.envelopeHeader.payloadLen + 2 ≤ s.ilen.toNat) :
    EnvelopePromises s.envelopeParsed := by
  have hoff : s.cfg.payloadOffset = 26 := payloadOffset_eq hc
  have hilen := s.ilen.isLt
  rw [Config.lenBias, hc] at hbias
  have hsub : s.envelopeHeader.payloadLen = s.envelopeHeader.eLen.toNat - 15 := by
    rw [State.payloadLen, envelopeHeader_cfg, Config.lenBias, hc]
  have hplen : s.envelopeParsed.ePlen.toNat = s.envelopeHeader.payloadLen := by
    rw [envelopeParsed_ePlen, BitVec.toNat_ofNat, Nat.mod_eq_of_lt (by omega)]
  have htoff : s.envelopeParsed.eToff.toNat = s.cfg.payloadOffset + 2 + s.envelopeHeader.payloadLen := by
    rw [envelopeParsed_eToff, BitVec.toNat_ofNat, Nat.mod_eq_of_lt (by omega)]
  have htlen : s.envelopeParsed.eTlen.toNat =
      s.ilen.toNat - (s.cfg.payloadOffset + 2 + s.envelopeHeader.payloadLen) := by
    rw [envelopeParsed_eTlen, BitVec.toNat_ofNat, Nat.mod_eq_of_lt (by omega)]
  have hsum : s.envelopeParsed.sum = s.envelopeHeader.envelopeSum := rfl
  exact
    { ilen := by rw [hplen, envelopeParsed_ilen]; omega
      eLen := by rw [hplen, envelopeParsed_eLen]; omega
      ePoff := by rw [envelopeParsed_ePoff, hoff]; rfl
      eStart := rfl
      eEnd := rfl
      eNent := rfl
      eState := rfl
      trailing := by rw [htoff, htlen, envelopeParsed_ilen]; omega
      sum := by rw [hsum, hplen, envelopeParsed_ibuf, State.envelopeSum, envelopeHeader_cfg, hoff]; rfl
      chkBad := by rw [flag_envelopeParsed_chkBad, hsum, envelopeParsed_eChk, bne_iff_ne] }

/-- Settles O25. -/
theorem validEnvelopeParsePromises : Obligations.ValidEnvelopeParsePromises := by
  intro s t hc ht hv
  obtain ⟨hstart, hbias, hwhole, hend⟩ := frame_whole_of_valid ht hv
  rw [execEpRun_parsed hstart hbias hwhole hend] at ht
  cases ht
  obtain ⟨hilen, hlen, hpoff, hs, he, hnent, hstate, htrailing, hsum, hbad⟩ :=
    (envelopeParsed_promises hc hbias hwhole).closed (s.envelopeParsed.flag .chkBad)
      (s.cfg.payloadOffset + s.envelopeHeader.payloadLen) 7
  exact ⟨hilen, hlen, hpoff, hs, he, hnent, hstate, htrailing, hsum, hbad⟩

/-! ## A second parse of the same input (R171) -/

/-- The state `a` with the error record and the port of `t` and some `SUM`. -/
def State.withReportOf (a t : State) (sum : Byte) : State :=
  { a with err := t.err, errPos := t.errPos, errEnt := t.errEnt, outcome := t.outcome, sum := sum }

/-- `b` is where a parse that began with the record, the port and the `SUM` of `t` stands while a first one, which began
elsewhere, stands in `a`: the two differ in these alone, and no longer in `SUM` once it is written. -/
def State.RerunOf (t a b : State) : Prop := ∃ sum, b = a.withReportOf t sum ∧ (sum = a.sum ∨ sum = t.sum)

/-- A part of the second parse against the same part of the first: it goes on as that one does, and where that one has
ended in `t` it ends in `t` too. -/
def Run.RerunOf (t : State) : Run → Run → Prop
  | .go a, .go b => State.RerunOf t a b
  | .ended a, .ended b => a = t → b = t
  | .fault _, .fault _ => True
  | _, _ => False

section
variable {t a b : State}

/-- Reporting overwrites what the two differ in. -/
theorem reported_rerun (h : State.RerunOf t a b) {e : ErrorName} {pos ent : Nat} {o : CommandOutcome}
    (ht : a.reported e pos ent o = t) : b.reported e pos ent o = t := by
  obtain ⟨sum, rfl, hsum⟩ := h
  have ha : sum = a.sum := hsum.elim id fun hs => by rw [hs, ← ht]; rfl
  rw [ha, ← ht]
  rfl

theorem raise_rerun (h : State.RerunOf t a b) (e : ErrorName) (pos ent : Nat) :
    (raise e pos ent a).RerunOf t (raise e pos ent b) := fun ht => reported_rerun h ht

theorem take_rerun (h : State.RerunOf t a b) {pos n ent : Nat} {next next' : List Byte → Run}
    (hn : ∀ bytes, (next bytes).RerunOf t (next' bytes)) :
    (take a pos n ent next).RerunOf t (take b pos n ent next') := by
  obtain ⟨hilen, hibuf⟩ : b.ilen = a.ilen ∧ b.ibuf = a.ibuf := by
    obtain ⟨sum, rfl, -⟩ := h
    exact ⟨rfl, rfl⟩
  rcases Nat.lt_or_ge a.ilen.toNat (pos + n) with hs | hle
  · rw [take_of_gt hs, take_of_gt (hilen ▸ hs)]
    exact raise_rerun h _ _ _
  · rw [take_of_le hle, take_of_le (hilen ▸ hle), hibuf]
    exact hn _

theorem ite_rerun {c : Prop} [Decidable c] {r₁ r₁' r₂ r₂' : Run} (h₁ : r₁.RerunOf t r₁') (h₂ : r₂.RerunOf t r₂') :
    (if c then r₁ else r₂).RerunOf t (if c then r₁' else r₂') := by
  split
  · exact h₁
  · exact h₂

theorem andThen_rerun {r r' : Run} {f : State → Run} (h : r.RerunOf t r')
    (hf : ∀ a b, State.RerunOf t a b → (f a).RerunOf t (f b)) : (r.andThen f).RerunOf t (r'.andThen f) := by
  match r, r', h with
  | .go _, .go _, h => exact hf _ _ h
  | .ended _, .ended _, h => exact h
  | .fault _, .fault _, h => exact h

/-- The states of the envelope FSM do not read what the two differ in. -/
theorem envelopeStates_rerun : ∀ f ∈ envelopeStates, ∀ a b, State.RerunOf t a b → (f a).RerunOf t (f b) := by
  simp only [envelopeStates, List.forall_mem_cons]
  refine ⟨fun a b h => ?start, fun a b h => ?length, fun a b h => ?control, fun a b h => ?counter, fun a b h => ?serial,
    fun a b h => ?data, fun a b h => ?payload, fun a b h => ?checksum, fun a b h => ?fin, fun a b h => ?done, by simp⟩
  all_goals obtain ⟨sum, rfl, hsum⟩ := h
  case start =>
    refine take_rerun ⟨sum, rfl, hsum⟩ fun _ => ite_rerun (raise_rerun ?_ _ _ _) ?_
    all_goals exact ⟨sum, rfl, hsum⟩
  case length | control | counter | serial | data => exact take_rerun ⟨sum, rfl, hsum⟩ fun _ => ⟨sum, rfl, hsum⟩
  case payload =>
    refine ite_rerun (raise_rerun ?_ _ _ _) (take_rerun ?_ fun _ => ?_)
    all_goals exact ⟨sum, rfl, hsum⟩
  case checksum =>
    rcases Nat.lt_or_ge a.ilen.toNat (a.cfg.payloadOffset + a.payloadLen + 1) with hshort | hwhole
    · rw [envelopeChecksum_short hshort, envelopeChecksum_short (s := a.withReportOf t sum) hshort]
      exact raise_rerun ⟨sum, rfl, hsum⟩ _ _ _
    · rw [envelopeChecksum_go hwhole, envelopeChecksum_go (s := a.withReportOf t sum) hwhole]
      exact ⟨a.envelopeSum, rfl, .inl rfl⟩
  case fin =>
    refine take_rerun ⟨sum, rfl, hsum⟩ fun _ => ite_rerun (raise_rerun ?_ _ _ _) ?_
    all_goals exact ⟨sum, rfl, hsum⟩
  case done =>
    have h : State.RerunOf t a.envelopeFinished (a.withReportOf t sum).envelopeFinished := ⟨sum, rfl, hsum⟩
    have hflag : (a.withReportOf t sum).envelopeFinished.flag .chkBad = a.envelopeFinished.flag .chkBad := rfl
    rw [envelopeDone_eq, envelopeDone_eq, hflag]
    split
    · exact fun ht => reported_rerun h ht
    · exact h

/-- Parts in sequence that each rerun do so together. -/
theorem runAll_rerun {parts : List (State → Run)}
    (hp : ∀ f ∈ parts, ∀ a b, State.RerunOf t a b → (f a).RerunOf t (f b)) (h : State.RerunOf t a b) :
    (runAll parts a).RerunOf t (runAll parts b) := by
  induction parts generalizing a b with
  | nil => exact h
  | cons f rest ih =>
    obtain ⟨hf, hrest⟩ := List.forall_mem_cons.1 hp
    exact andThen_rerun (hf a b h) fun _ _ => ih hrest

/-- A rerun of a command that answered `t` answers `t`. -/
theorem finish_rerun {r r' : Run} (h : r.RerunOf t r') (ht : r.finish = .next t) : r'.finish = .next t := by
  match r, r', h with
  | .go a, .go b, ⟨sum, hb, hsum⟩ =>
    subst hb
    cases ht
    have ha : sum = a.sum := hsum.elim id id
    rw [ha]
    rfl
  | .ended a, .ended b, h => exact congrArg _ (h (Host.Outcome.next.inj ht))
  | .fault _, .fault _, _ => cases ht

/-- What `EP.RUN` clears, it clears in the state that it has left as in the one that it began in (R171). -/
theorem envelopeClear_rerun {s : State} (ht : exec .epRun s = .next t) :
    State.RerunOf t s.envelopeClear t.envelopeClear := by
  obtain ⟨u, hu, hwrites, hstatus⟩ := epRunEndsAndKeepsTheRest s
  cases hu.symm.trans ht
  refine ⟨t.sum, ?_, .inr rfl⟩
  refine (congrArg State.envelopeClear hwrites).trans ?_
  rw [envelopeClear_eq_head, envelopeClear_eq_head, State.envelopeHead, hstatus]
  rfl

end

/-- Settles O26: the second run begins where the first did but for the report and `SUM`, which no state of the FSM
reads. -/
theorem epRunIsIdempotent : Obligations.EpRunIsIdempotent := fun _ _ ht =>
  finish_rerun (runAll_rerun envelopeStates_rerun (envelopeClear_rerun ht)) ht

/-! ## The assembler (R184, R185) -/

/-- One element overwritten inside a string that was just written. -/
theorem Mem.readRange_write_writeRange {w : Nat} {m : Mem w} (hm : Mem.wf m = true) (off : Nat) (a b : List (BitVec w))
    (old new : BitVec w) :
    Mem.readRange (Mem.write (Mem.writeRange m off (a ++ old :: b)) (off + a.length) new) off (a ++ new :: b).length =
      a ++ new :: b := by
  have hwf := Mem.wf_writeRange m off (a ++ old :: b) hm
  obtain ⟨hbefore, hafter⟩ := (Mem.readRange_append_iff _ off a (old :: b)).1 (Mem.readRange_writeRange m hm off _)
  rw [List.length_cons, Mem.readRange, List.cons.injEq] at hafter
  refine (Mem.readRange_append_iff _ _ _ _).2 ⟨?_, ?_⟩
  · rw [Mem.readRange_congr _ _ _ _ fun i hi => Mem.read_write_other _ _ _ _ (by omega), hbefore]
  · rw [List.length_cons, Mem.readRange, Mem.read_write_same _ hwf,
      Mem.readRange_congr _ _ _ _ fun i _ => Mem.read_write_other _ _ _ _ (by omega), hafter.2]

/-- The bytes of the frame that the checksum covers (R184, R186). -/
def State.frameBody (s : State) (serial : Word) : List Byte :=
  le16 (BitVec.ofNat 16 (s.cfg.lenBias + reqLen)) ++ be16 s.ctrl ++ be16 s.cnt ++ le32 serial ++ s.cfg.dataPattern ++
    Mem.readRange s.pbuf 0 reqLen

@[simp] theorem length_frameBody (s : State) (serial : Word) :
    (s.frameBody serial).length = s.cfg.payloadOffset - 1 + reqLen := by
  simp [State.frameBody, Config.payloadOffset, Config.dataLen, hdrLen]
  omega

/-- The draft is the frame with 0x00 for the checksum. -/
theorem frameDraft_eq (s : State) (serial : Word) :
    frameDraft s serial = (startDelim :: s.frameBody serial) ++ 0x00 :: [endDelim] := by
  simp [frameDraft, State.frameBody]

/-- `OBUF` after `ENV.BUILD` (R184). -/
def State.frameBuffer (s : State) (serial : Word) : Mem 8 :=
  Mem.write (Mem.writeRange s.obuf 0 (frameDraft s serial)) (s.cfg.payloadOffset + reqLen) (sum8 (s.frameBody serial))

/-- The bit of `OB_VALID` (R25). -/
theorem mask_obValid : Flag.obValid.mask = 0x40 := rfl

/-- The state after `ENV.BUILD` with a request built (R184, R185). -/
def State.frameBuilt (s : State) (serial : Word) : State :=
  { s with
    obuf := s.frameBuffer serial
    olen := BitVec.ofNat 16 s.cfg.obufLen
    sum := sum8 (s.frameBody serial)
    cnt := s.cnt + 1
    status := s.status ||| 0x40
    outcome := some .ok }

section
variable {s : State} (hm : Mem.wf s.obuf = true) (serial : Word)

include hm in
/-- The checksum is over the draft's bytes between the start delimiter and its own place. -/
theorem readRange_frameDraft :
    Mem.readRange (Mem.writeRange s.obuf 0 (frameDraft s serial)) 1 (s.cfg.payloadOffset - 1 + reqLen) =
      s.frameBody serial := by
  have hwhole := Mem.readRange_writeRange s.obuf hm 0 (frameDraft s serial)
  rw [frameDraft_eq] at hwhole ⊢
  obtain ⟨hbefore, -⟩ := (Mem.readRange_append_iff _ _ _ _).1 hwhole
  rw [List.length_cons, Mem.readRange, List.cons.injEq, length_frameBody] at hbefore
  exact hbefore.2

include hm in
/-- `ENV.BUILD` with a request built (R184, R185). -/
theorem exec_envBuild (hpb : s.flag .pbValid = true) : exec (.envBuild serial) s = .next (s.frameBuilt serial) := by
  have hplace : s.cfg.payloadOffset - 1 + reqLen + 1 = s.cfg.payloadOffset + reqLen := by
    show 11 + s.cfg.dataLen - 1 + 8 + 1 = 11 + s.cfg.dataLen + 8
    omega
  show execEnvBuild serial s = _
  rw [execEnvBuild, if_pos hpb]
  dsimp only
  rw [readRange_frameDraft hm, hplace, completed_eq, setFlag_true, mask_obValid, State.frameBuilt, State.frameBuffer,
    State.withOutcome]

include hm in
/-- The bytes of the frame (R184). -/
theorem readRange_frameBuffer :
    Mem.readRange (s.frameBuffer serial) 0 s.cfg.obufLen =
      startDelim :: (s.frameBody serial ++ [sum8 (s.frameBody serial), endDelim]) := by
  have h := Mem.readRange_write_writeRange hm 0 (startDelim :: s.frameBody serial) [endDelim] 0x00
    (sum8 (s.frameBody serial))
  have hplace : 0 + (startDelim :: s.frameBody serial).length = s.cfg.payloadOffset + reqLen := by
    rw [List.length_cons, length_frameBody]
    show 0 + (11 + s.cfg.dataLen - 1 + 8 + 1) = 11 + s.cfg.dataLen + 8
    omega
  have hlength : ((startDelim :: s.frameBody serial) ++ [sum8 (s.frameBody serial), endDelim]).length =
      s.cfg.obufLen := by
    rw [List.length_append, List.length_cons, length_frameBody]
    show 11 + s.cfg.dataLen - 1 + 8 + 1 + 2 = 11 + s.cfg.dataLen + 8 + 2
    omega
  rwa [hplace, ← frameDraft_eq, hlength] at h

/-- No other byte of `OBUF` (R184). -/
theorem read_frameBuffer_other {i : Nat} (h : s.cfg.obufLen ≤ i) :
    Mem.read (s.frameBuffer serial) i = Mem.read s.obuf i := by
  have hplace : s.cfg.payloadOffset + reqLen < s.cfg.obufLen := Nat.lt_add_of_pos_right (by decide)
  rw [State.frameBuffer, Mem.read_write_other _ _ _ _ (by omega),
    Mem.read_writeRange_other _ _ _ _ (.inr (by rw [length_frameDraft]; omega))]

end

/-- Settles O27: the sizes are those of the 15-byte data pattern. -/
theorem envBuildAssemblesTheFrame : Obligations.EnvBuildAssemblesTheFrame := by
  refine ⟨fun _ _ _ _ => rfl, fun s a hpb => ?_, fun s a hpb hm hpat => ?_⟩
  · show execEnvBuild a s = _
    rw [execEnvBuild, hpb]
    rfl
  intro body
  have hlen : s.cfg.dataLen = 15 := congrArg List.length hpat
  have hobuf : s.cfg.obufLen = 36 := congrArg (11 + · + 8 + 2) hlen
  have hbody : s.frameBody a = body := by rw [State.frameBody, Config.lenBias, hlen, hpat]; rfl
  refine ⟨s.frameBuilt a, exec_envBuild hm a hpb, ?_, fun i hi => read_frameBuffer_other a (by omega),
    BitVec.toNat_add _ _, ?_⟩
  · rw [← hobuf, ← hbody]
    exact readRange_frameBuffer hm a
  · rw [State.frameBuilt, hobuf, hbody]; rfl

/-! ## The round trip of a built frame (R184, R190, R171 to R202) -/

/-- The CRC of a request (R190, R202). -/
def requestCrc (fc start count : Half) : Half := crc16 (be16 fc ++ be16 start ++ be16 count)

/-- A request with the right CRC. -/
def goodRequest (fc start count : Half) : List Byte :=
  encode (.wireModbusRequest fc start count (requestCrc fc start count))

/-- The state after `MB.REQ` (R190). -/
def State.requestBuilt (s : State) (fc start count : Half) : State :=
  { s with
    pbuf := Mem.writeRange s.pbuf 0 (goodRequest fc start count)
    crc := requestCrc fc start count
    olen := 0
    status := (s.status ||| 0x20) &&& 0xBF
    outcome := some .ok }

theorem exec_mbReq (s : State) (fc start count : Half) :
    exec (.mbReq fc start count) s = .next (s.requestBuilt fc start count) := rfl

theorem flag_requestBuilt_pbValid (s : State) (fc start count : Half) :
    (s.requestBuilt fc start count).flag .pbValid = true := by
  simp [State.requestBuilt, State.flag, Flag.bit]

/-- `IB.CLR` and one `IB.LOAD` that fits set the input (R102, R155, R156). -/
theorem runSeq_ibClr_ibLoad {s : State} {bytes : List Byte} (h : bytes.length ≤ s.cfg.ibufMax) (rest : List Instr) :
    runSeq (.ibClr :: .ibLoad bytes :: rest) s = runSeq rest (s.inputSet bytes) := by
  have hclr : exec .ibClr s = .next (s.inputSet []) := ibClrEmptiesTheInput.2 s
  have hload : exec (.ibLoad bytes) (s.inputSet []) = .next (s.inputSet bytes) := by
    refine (execIbLoad_appended ?_).trans (congrArg Host.Outcome.next (appended_appended _ [] bytes (by simp)))
    simpa [State.inputSet, State.appended] using h
  rw [runSeq, hclr, afterNext_next, runSeq, hload, afterNext_next]

/-- The state in which `MP.CMD` looks for the CRC field of a request (R193). -/
def State.requestOpened (s : State) (src : Byte) : State := (s.modbusOpened false src).requestRead

/-- `MP.CMD` on a span of at least the eight bytes of a request (R193). -/
theorem execMpCmd_whole {s : State} {src : Byte} (hsrc : (src = 0 ∧ s.flag .eHaspl = true) ∨ src = 1)
    (hspan : 8 ≤ (s.spanLength src).toNat) (hfits : (s.spanBase src).toNat + 8 ≤ s.ilen.toNat) :
    exec (.mpCmd src) s = .next (((s.requestOpened src).modbusFinished 6 3).closed
      ((s.requestOpened src).modbusCheck 6 != (s.requestOpened src).modbusField 6) 6 3) := by
  have hfields := requestFields_go (s := s.modbusOpened false src) (by simp; omega) (by simp; omega)
  rw [execMpCmd_eq hsrc, hfields, andThen_go]
  exact modbusCrc_finish (s := s.requestOpened src) hspan hfits 3

/-- The fields of the request at the start of the span, where `MP.CMD` has read them (R193, R202). -/
structure RequestFields (fc start count crc : Half) (w : State) : Prop where
  mFc : w.mFc = fc
  mStart : w.mStart = start
  mCount : w.mCount = count
  check : w.modbusCheck 6 = crc16 (be16 fc ++ be16 start ++ be16 count)
  field : w.modbusField 6 = crc

theorem requestOpened_fields {s : State} {src : Byte} {fc start count crc : Half} {trailing : List Byte}
    (h : s.holdsSpan src (encode (.wireModbusRequest fc start count crc) ++ trailing)) :
    RequestFields fc start count crc (s.requestOpened src) := by
  have hlen : (encode (.wireModbusRequest fc start count crc) ++ trailing).length = 8 + trailing.length :=
    List.length_append
  exact
    { mFc := (congrArg ofBE16 (State.holdsSpan.readRange_eq h 0 2 (by omega))).trans (ofBE16_be16 fc)
      mStart := (congrArg ofBE16 (State.holdsSpan.readRange_eq h 2 2 (by omega))).trans (ofBE16_be16 start)
      mCount := (congrArg ofBE16 (State.holdsSpan.readRange_eq h 4 2 (by omega))).trans (ofBE16_be16 count)
      check := congrArg crc16 (State.holdsSpan.readRange_eq h 0 6 (by omega))
      field := (congrArg ofLE16 (State.holdsSpan.readRange_eq h 6 2 (by omega))).trans (ofLE16_le16 crc) }

/-- `MP.CMD` on a span that is a request with the right CRC (R193, R201, R202). -/
theorem execMpCmd_of_goodRequest {s : State} {src : Byte} {fc start count : Half}
    (h : s.holdsSpan src (goodRequest fc start count)) :
    ∃ u, exec (.mpCmd src) s = .next u ∧ u.flag .mValid = true ∧ u.flag .crcBad = false ∧
      u.mFc = fc ∧ u.mStart = start ∧ u.mCount = count ∧ u.mTlen = 0 ∧ u.outcome = some .ok := by
  have hfields := requestOpened_fields (trailing := []) ((List.append_nil (goodRequest fc start count)).symm ▸ h)
  obtain ⟨hsrc, hslen, hfits, -⟩ := h
  have hgood : (s.requestOpened src).modbusCheck 6 = (s.requestOpened src).modbusField 6 :=
    hfields.check.trans hfields.field.symm
  have hmSlen : (s.requestOpened src).mSlen.toNat = 8 := hslen
  have hu := execMpCmd_whole hsrc hslen.ge hfits
  rw [hgood, bne_self_eq_false, State.closed, if_neg Bool.false_ne_true] at hu
  refine ⟨_, hu, by simp, ?_, ?_, ?_, ?_, ?_, rfl⟩
  · rw [State.flag_withOutcome, flag_modbusFinished, hgood, bne_self_eq_false]
    rfl
  · rw [withOutcome_mFc, modbusFinished_mFc, hfields.mFc]
  · rw [withOutcome_mStart, modbusFinished_mStart, hfields.mStart]
  · rw [withOutcome_mCount, modbusFinished_mCount, hfields.mCount]
  · rw [withOutcome_mTlen, modbusFinished_mTlen, hmSlen]
    rfl

/-- The payload of a frame that `EP.RUN` has found valid is a span for the Modbus parsers (R178, R191). -/
theorem FrameParsed.holdsSpan {frame data payload : List Byte} {len ctrl cnt : Half} {ser : Word} {chk fin : Byte}
    {t : State} (h : FrameParsed frame len ctrl cnt ser data payload chk t)
    (hf : frame = encode (.wireEnvelopeFrame len ctrl cnt ser data payload chk fin)) (hd : data.length = 15)
    (hinv : EnvelopeInv t) : t.holdsSpan 0 payload := by
  obtain ⟨hhaspl, -⟩ := hinv.valid h.eValid
  have hl := length_frame hf hd
  have hbase : (t.spanBase 0).toNat = 26 := congrArg BitVec.toNat h.ePoff
  refine ⟨.inl ⟨rfl, hhaspl⟩, h.ePlen, ?_, ?_⟩
  · rw [hbase, h.holds.1, hl]; omega
  · rw [hbase, h.holds.readRange_eq (by omega), slice_frame_payload hf hd]

/-- Both parsers on an input that holds exactly a frame with the right checksum, whose payload is a request with the
right CRC: every field is read back, and both checks are good (R171 to R181, R191 to R202). -/
theorem runSeq_epRun_mpCmd {s : State} (hc : s.cfg.legal) {ctrl cnt fc start count : Half} {ser : Word} {chk : Byte}
    {frame : List Byte} (hin : s.holdsInput frame)
    (hf : frame = encode (.wireEnvelopeFrame 23 ctrl cnt ser defaultPattern (goodRequest fc start count) chk endDelim))
    (hchk : sum8 (frame.tail.take 33) = chk) :
    ∃ u, runSeq [.epRun, .mpCmd 0] s = .next u ∧
      u.flag .eValid = true ∧ u.flag .chkBad = false ∧ u.flag .mValid = true ∧ u.flag .crcBad = false ∧
      u.eCtrl = ctrl ∧ u.eCnt = cnt ∧ u.eSer = ser ∧ u.eTlen = 0 ∧
      u.mFc = fc ∧ u.mStart = start ∧ u.mCount = count ∧ u.mTlen = 0 ∧ u.cnt = s.cnt ∧ u.outcome = some .ok := by
  obtain ⟨hdata, -, -⟩ := sizes_of_legal hc
  obtain ⟨v, hv, hp⟩ := execEpRun_of_frame hf rfl hin hdata rfl
  have hcnt : v.cnt = s.cnt := ((execEpRun_answers s).of_next hv).parts .cnt
  have hchkBad : v.flag .chkBad = false := Bool.eq_false_iff.2 fun hbad => hp.chkBad.1 hbad hchk
  obtain ⟨u, hu, hmValid, hcrcBad, hmFc, hmStart, hmCount, hmTlen, houtcome⟩ :=
    execMpCmd_of_goodRequest (hp.holdsSpan hf rfl (execEpRun_envelopeInv hc hv))
  have hkept := exec_writes (.mpCmd 0) v u hu
  have hueValid : u.flag .eValid = v.flag .eValid := hkept.parts (.flag .eValid)
  have huchkBad : u.flag .chkBad = v.flag .chkBad := hkept.parts (.flag .chkBad)
  have hucnt : u.cnt = v.cnt := hkept.parts .cnt
  have henvelope : u.content .envelope = v.content .envelope := hkept.parts .envelope
  simp only [State.content, Prod.mk.injEq] at henvelope
  obtain ⟨-, -, -, heCtrl, heCnt, heSer, -, -, -, -, -, heTlen, -⟩ := henvelope
  exact ⟨u, by rw [runSeq, hv, afterNext_next, runSeq, hu, afterNext_next, runSeq],
    hueValid.trans hp.eValid, huchkBad.trans hchkBad, hmValid, hcrcBad, heCtrl.trans hp.eCtrl, heCnt.trans hp.eCnt,
    heSer.trans hp.eSer, heTlen.trans hp.eTlen, hmFc, hmStart, hmCount, hmTlen, hucnt.trans hcnt, houtcome⟩

section
variable {s : State} (hc : s.cfg.legal) (hm : Mem.wf s.obuf = true) (serial : Word)
include hc hm

/-- A built frame is a frame of the wire format (R97, R184). -/
theorem readRange_frameBuffer_eq_encode :
    Mem.readRange (s.frameBuffer serial) 0 36 = encode (.wireEnvelopeFrame 23 s.ctrl s.cnt serial defaultPattern
      (Mem.readRange s.pbuf 0 8) (sum8 (s.frameBody serial)) endDelim) := by
  obtain ⟨hdata, -, hsize⟩ := sizes_of_legal hc
  obtain ⟨-, -, -, -, hpat⟩ := hc
  rw [← hsize, readRange_frameBuffer hm, State.frameBody, Config.lenBias, hdata, hpat]
  simp only [List.append_assoc, List.cons_append, List.nil_append]
  rfl

/-- The bytes of a built frame that its checksum covers (R184, R186). -/
theorem tail_take_frameBuffer : (Mem.readRange (s.frameBuffer serial) 0 36).tail.take 33 = s.frameBody serial := by
  obtain ⟨-, hoff, hsize⟩ := sizes_of_legal hc
  have hlen : (s.frameBody serial).length = 33 := by rw [length_frameBody, hoff]; rfl
  rw [← hsize, readRange_frameBuffer hm, List.tail_cons, ← hlen, List.take_left]

end

/-- A frame built from a good request, copied into the input buffer, is read back by both parsers (R184 against R171 to
R202). -/
theorem runSeq_load_parse_frameBuilt {s : State} (hc : s.cfg.legal) (hibuf : Mem.wf s.ibuf = true)
    (hobuf : Mem.wf s.obuf = true) {fc start count : Half}
    (hrequest : Mem.readRange s.pbuf 0 8 = goodRequest fc start count) (ser : Word) :
    ∃ u, runSeq [.ibClr, .ibLoad (Mem.readRange (s.frameBuilt ser).obuf 0 36), .epRun, .mpCmd 0] (s.frameBuilt ser) =
        .next u ∧
      u.flag .eValid = true ∧ u.flag .chkBad = false ∧ u.flag .mValid = true ∧ u.flag .crcBad = false ∧
      u.eCtrl = s.ctrl ∧ u.eCnt = s.cnt ∧ u.eSer = ser ∧ u.eTlen = 0 ∧
      u.mFc = fc ∧ u.mStart = start ∧ u.mCount = count ∧ u.mTlen = 0 ∧ u.cnt = s.cnt + 1 ∧ u.outcome = some .ok := by
  obtain ⟨-, -, hmin, -, -⟩ := id hc
  have hframe := readRange_frameBuffer_eq_encode hc hobuf ser
  rw [hrequest] at hframe
  have hlen : (Mem.readRange (s.frameBuilt ser).obuf 0 36).length = 36 := Mem.length_readRange _ _ _
  have hin := inputSet_holdsInput (s := s.frameBuilt ser) hibuf (hlen.trans_le (by decide))
  obtain ⟨u, hu, hparsed⟩ := runSeq_epRun_mpCmd (s := (s.frameBuilt ser).inputSet _) hc hin hframe
    (congrArg sum8 (tail_take_frameBuffer hc hobuf ser))
  exact ⟨u, (runSeq_ibClr_ibLoad (s := s.frameBuilt ser) (hlen.trans_le hmin) _).trans hu, hparsed⟩

/-- Settles O43: the request that `MB.REQ` leaves in `PBUF` is the one that the frame carries. -/
theorem builtFrameParsesBackToItsOperands : Obligations.BuiltFrameParsesBackToItsOperands := by
  intro s fc start count ser h
  obtain ⟨hibuf, hpbuf, hobuf, -, -⟩ := h.arraysWf
  have hbuild : exec (.envBuild ser) (s.requestBuilt fc start count) =
      .next ((s.requestBuilt fc start count).frameBuilt ser) :=
    exec_envBuild (s := s.requestBuilt fc start count) hobuf ser (flag_requestBuilt_pbValid s fc start count)
  obtain ⟨u, hu, hparsed⟩ := runSeq_load_parse_frameBuilt (s := s.requestBuilt fc start count) h.cfgLegal hibuf hobuf
    (Mem.readRange_writeRange s.pbuf hpbuf 0 (goodRequest fc start count)) ser
  refine ⟨_, u, ?_, hu, hparsed⟩
  rw [runSeq, exec_mbReq, afterNext_next, runSeq, hbuild, afterNext_next, runSeq]

end Sys2Proof.Machine

/-! What 44_modbus.md says of the request assembler (R190), of the two parsers on whatever span they are given (R191 to
R202, R204) and of the register views (R205 to R207). -/

namespace Sys2Proof

/-- A big-endian register is read from the first two bytes (R11). -/
theorem ofBE16_take_two (bytes : List Byte) : ofBE16 (bytes.take 2) = ofBE16 bytes := by
  rcases bytes with _ | ⟨a, _ | ⟨b, rest⟩⟩ <;> rfl

/-- The function code of a read on the wire (R11, R197). -/
theorem ofBE16_readCode (rest : List Byte) : ofBE16 (0x01 :: 0x03 :: rest) = fcRead := ofBE16_be16_append fcRead rest

end Sys2Proof

namespace Sys2Proof.Machine

/-! ## The request assembler (R190) -/

/-- Settles O28: `PBUF` is written from index 0 on with the eight bytes of the request. -/
theorem mbReqAssemblesTheRequest : Obligations.MbReqAssemblesTheRequest := by
  refine ⟨fun _ _ _ _ _ _ => rfl, fun s fc start count hm => ?_⟩
  refine ⟨s.requestBuilt fc start count, exec_mbReq s fc start count, ?_, fun i hi => ?_, rfl⟩
  · exact Mem.readRange_writeRange s.pbuf hm 0 (goodRequest fc start count)
  · exact Mem.read_writeRange_other s.pbuf 0 (goodRequest fc start count) i (.inr hi)

/-! ## The register views (R205 to R207) -/

section
variable {s : State} {a : Byte}

/-- A view of one register, `extend` its extension to the width of `RDATA` (R205, R206). -/
theorem view_of_lt (h : a.toNat < s.mNreg.toNat) (hc : s.mNreg.toNat ≤ s.cfg.catalogRegs) (extend : Half → Word) :
    (if a.toNat ≥ s.mNreg.toNat then viewError a.toNat s
      else regRead s a.toNat fun v => .go { s with rdata := extend v }).finish =
      .next (s.latched (extend (Mem.read s.mReg a.toNat))) := by
  rw [if_neg (Nat.not_le.2 h), regRead_of_lt (by omega)]
  rfl

/-- The error of a view (R205 to R207). -/
theorem view_of_ge {n : Nat} (h : s.mNreg.toNat ≤ n) (r : Run) :
    (if n ≥ s.mNreg.toNat then viewError a.toNat s else r).finish =
      .next (s.failed .truncatedInput (3 + 2 * a.toNat) (2 + a.toNat)) := by
  rw [if_pos h]
  rfl

/-- A view of a pair of registers, the low word first (R207). -/
theorem exec_fxD32_of_lt (h : a.toNat + 1 < s.mNreg.toNat) (hc : s.mNreg.toNat ≤ s.cfg.catalogRegs) :
    exec (.fxD32 a) s = .next (s.latched (Mem.read s.mReg (a.toNat + 1) ++ Mem.read s.mReg a.toNat)) := by
  show execFxD32 a s = _
  rw [execFxD32, if_neg (Nat.not_le.2 h), regRead_of_lt (by omega), regRead_of_lt (by omega)]
  rfl

end

/-- Two registers put together, as a number (R207). -/
theorem half_append_eq_ofNat (high low : Half) :
    (high ++ low : Word) = BitVec.ofNat 32 (high.toNat * 2 ^ 16 + low.toNat) := by
  refine BitVec.eq_of_toNat_eq ?_
  have hhigh := high.isLt
  have hlow := low.isLt
  rw [BitVec.toNat_append, ← Nat.shiftLeft_add_eq_or_of_lt hlow, Nat.shiftLeft_eq, BitVec.toNat_ofNat,
    Nat.mod_eq_of_lt (by omega)]

/-- Settles O39: the two extensions are those of the register's unsigned and signed value. -/
theorem registerViewsReadTheTable : Obligations.RegisterViewsReadTheTable := by
  refine ⟨fun a => ⟨rfl, rfl, rfl⟩, fun s a => ⟨fun h hc => ⟨?_, ?_⟩, fun h hc => ?_, fun h => ⟨?_, ?_⟩, fun h => ?_⟩⟩
  · rw [BitVec.ofNat_toNat]
    exact view_of_lt h hc zext32
  · exact view_of_lt h hc sext32
  · rw [exec_fxD32_of_lt h hc, half_append_eq_ofNat]
    rfl
  · exact view_of_ge h _
  · exact view_of_ge h _
  · exact view_of_ge h _

/-! ## A parse in progress (R191 to R199)

Between two entries a parse of `s` has written the fields it has extracted, `M_NENT` and `M_STATE`, over what R191
clears. -/

/-- The fields that a Modbus parse has extracted so far; those it has not yet, or that the message does not have, are 0
(R191). -/
structure ModbusFields where
  fc : Half := 0
  len : Byte := 0
  start : Half := 0
  count : Half := 0
  table : List Half := []

/-- A parse of the span that `src` selects in `s`, after `ent` entries. -/
def State.parsing (s : State) (isResponse : Bool) (src : Byte) (f : ModbusFields) (ent : Nat) (st : ModbusState) :
    State :=
  { s with
    status := if isResponse then (s.status &&& 0x67) ||| 0x80 else s.status &&& 0x67
    mState := st.code
    mFc := f.fc, mLen := f.len, mStart := f.start, mCount := f.count, mCrc := 0
    mNreg := BitVec.ofNat 8 f.table.length, mToff := 0, mTlen := 0, mNent := BitVec.ofNat 8 ent
    mBase := s.spanBase src, mSlen := s.spanLength src, mReg := Mem.writeRange [] 0 f.table }

/-- Where a parse begins (R191, R193, R194). -/
theorem modbusOpened_eq_parsing (s : State) (isResponse : Bool) (src : Byte) :
    s.modbusOpened isResponse src = s.parsing isResponse src {} 0 .expectFunctionCode := by
  have hstatus : (s.modbusOpened isResponse src).status =
      if isResponse then (s.status &&& 0x67) ||| 0x80 else s.status &&& 0x67 := by
    rw [status_modbusOpened]
    cases isResponse
    · exact BitVec.or_zero
    · rfl
  rw [State.parsing, ← hstatus]
  rfl

section
variable {s : State} {isResponse : Bool} {src : Byte} {f : ModbusFields} {ent : Nat} {st : ModbusState}
variable {bytes : List Byte} (h : s.holdsSpan src bytes)
include h

/-- What lies in the bytes of a span lies in the span and in the input buffer. -/
theorem State.holdsSpan.fits {n : Nat} (hn : n ≤ bytes.length) :
    n ≤ (s.spanLength src).toNat ∧ (s.spanBase src).toNat + n ≤ s.ilen.toNat := by
  obtain ⟨-, hlen, hin, -⟩ := h
  omega

theorem State.holdsSpan.short {n : Nat} (hn : bytes.length < n) : (s.spanLength src).toNat < n := by
  obtain ⟨-, hlen, -, -⟩ := h
  omega

theorem State.holdsSpan.read_eq {pos : Nat} (hn : pos < bytes.length) :
    Mem.read s.ibuf ((s.spanBase src).toNat + pos) = byteAt bytes pos := by
  obtain ⟨-, -, -, hbytes⟩ := h
  rw [byteAt, ← hbytes, Mem.getD_readRange _ _ _ _ _ hn]

/-- An entry that is there whole (R195). -/
theorem mtake_parsing_go {pos n : Nat} (hn : pos + n ≤ bytes.length) (k : Nat) (e : ErrorName)
    (next : List Byte → Run) :
    mtake (s.parsing isResponse src f ent st) pos n k e next = next ((bytes.drop pos).take n) := by
  obtain ⟨hspan, hin⟩ := h.fits hn
  rw [← h.readRange_eq pos n hn]
  exact mtake_of_le (s := s.parsing isResponse src f ent st) hspan ((Nat.add_assoc _ _ _).trans_le hin) k e next

/-- An entry that is not there whole (R195, R222). -/
theorem mtake_parsing_short {pos n : Nat} (hn : bytes.length < pos + n) (k : Nat) (e : ErrorName)
    (next : List Byte → Run) :
    mtake (s.parsing isResponse src f ent st) pos n k e next = raise e pos k (s.parsing isResponse src f ent st) :=
  mtake_of_gt (s := s.parsing isResponse src f ent st) (h.short hn) k e next

end

/-! ## The end of a parse (R193, R200 to R202) -/

/-- What a parse leaves that finds the CRC field `crc` at span offset `pos`, after `ent` entries, where `check` is the
CRC it computes (R200, R201): the entries, `CRC`, the trailing span and, last, whether the two differ. -/
def State.concluded (s : State) (isResponse : Bool) (src : Byte) (f : ModbusFields) (pos ent trailing : Nat)
    (check crc : Half) : State :=
  { s.parsing isResponse src f (ent + 1) .done with
    status := (s.status &&& 0x67) |||
      (if check = crc then if isResponse then 0x88 else 0x08 else if isResponse then 0x98 else 0x18)
    err := if check = crc then s.err else 3
    errPos := if check = crc then s.errPos else BitVec.ofNat 16 pos
    errEnt := if check = crc then s.errEnt else BitVec.ofNat 16 ent
    crc := check, mCrc := crc, mToff := BitVec.ofNat 16 (pos + 2), mTlen := BitVec.ofNat 16 trailing
    outcome := some (if check = crc then .ok else .okFlagged) }

/-- The flags that the end of a parse sets (R193, R200, R201). -/
theorem status_parsing_finished (s : State) (isResponse : Bool) (src : Byte) (f : ModbusFields) (k : Nat)
    (st : ModbusState) (pos ent : Nat) :
    let w := s.parsing isResponse src f k st
    (w.modbusFinished pos ent).status = (s.status &&& 0x67) |||
      (if w.modbusCheck pos = w.modbusField pos then if isResponse then 0x88 else 0x08
        else if isResponse then 0x98 else 0x18) := by
  intro w
  rw [status_modbusFinished]
  have hw : w.status = if isResponse then (s.status &&& 0x67) ||| 0x80 else s.status &&& 0x67 := rfl
  rw [hw]
  cases isResponse <;> split <;>
    simp only [if_true, Bool.false_eq_true, if_false, BitVec.and_or_distrib_right, BitVec.and_assoc,
      BitVec.or_assoc] <;> rfl

/-- A parse that has read its CRC field, closed by what the check says (R193, R200, R201). -/
theorem parsing_finished_closed (s : State) (isResponse : Bool) (src : Byte) (f : ModbusFields) (k : Nat)
    (st : ModbusState) (pos ent : Nat) :
    let w := s.parsing isResponse src f k st
    (w.modbusFinished pos ent).closed (w.modbusCheck pos != w.modbusField pos) pos ent =
      s.concluded isResponse src f pos ent ((s.spanLength src).toNat - (pos + 2)) (w.modbusCheck pos)
        (w.modbusField pos) := by
  intro w
  rw [State.concluded, ← status_parsing_finished s isResponse src f k st pos ent]
  by_cases hcheck : w.modbusCheck pos = w.modbusField pos
  · simp only [if_pos hcheck, bne_eq_false_iff_eq.2 hcheck]
    rfl
  · simp only [if_neg hcheck, bne_iff_ne.2 hcheck]
    rfl

/-- A CRC field that is there whole, the string before it `body`: what follows it is the trailing span, and the check
covers `body` (R193, R200 to R202). -/
theorem modbusCrc_parsing {s : State} {src : Byte} {body trailing : List Byte} {crc : Half}
    (h : s.holdsSpan src (body ++ le16 crc ++ trailing)) (isResponse : Bool) (f : ModbusFields) (k : Nat)
    (st : ModbusState) {pos : Nat} (hpos : body.length = pos) (ent : Nat) :
    (modbusCrc pos ent (s.parsing isResponse src f k st)).finish =
      .next (s.concluded isResponse src f pos ent trailing.length (crc16 body) crc) := by
  have hlen : (body ++ le16 crc ++ trailing).length = pos + 2 + trailing.length := by simp [hpos, Nat.add_assoc]
  obtain ⟨hspan, hin⟩ := h.fits (n := pos + 2) (by omega)
  have hcheck : (s.parsing isResponse src f k st).modbusCheck pos = crc16 body := by
    refine congrArg crc16 ((h.readRange_eq 0 pos (by omega)).trans ?_)
    rw [List.drop_zero, List.append_assoc, List.take_left' hpos]
  have hfield : (s.parsing isResponse src f k st).modbusField pos = crc := by
    refine (congrArg ofLE16 (h.readRange_eq pos 2 (by omega))).trans ?_
    rw [List.append_assoc, List.drop_left' hpos, List.take_left' (length_le16 crc), ofLE16_le16]
  have htrailing : (s.spanLength src).toNat - (pos + 2) = trailing.length := by
    obtain ⟨-, hslen, -, -⟩ := h
    omega
  rw [modbusCrc_finish (s := s.parsing isResponse src f k st) hspan ((Nat.add_assoc _ _ _).trans_le hin),
    parsing_finished_closed, hcheck, hfield, htrailing]

/-! ## Requests (R193) -/

section
variable {s : State} {src : Byte} {bytes : List Byte} (h : s.holdsSpan src bytes)
include h

theorem execMpCmd_span : exec (.mpCmd src) s =
    ((((requestFunctionCode (s.parsing false src {} 0 .expectFunctionCode)).andThen requestStart).andThen
      requestCount).andThen (modbusCrc 6 3)).finish := by
  obtain ⟨hsrc, -⟩ := h
  rw [execMpCmd_eq hsrc, modbusOpened_eq_parsing]

theorem requestFunctionCode_parsing {f : ModbusFields} {k : Nat} {st : ModbusState} (hn : 2 ≤ bytes.length) :
    requestFunctionCode (s.parsing false src f k st) =
      .go (s.parsing false src { f with fc := ofBE16 bytes } 1 .expectStart) := by
  rw [requestFunctionCode, mtake_parsing_go h hn, ofBE16_take_two]
  rfl

theorem requestStart_parsing {f : ModbusFields} {k : Nat} {st : ModbusState} (hn : 4 ≤ bytes.length) :
    requestStart (s.parsing false src f k st) =
      .go (s.parsing false src { f with start := ofBE16 (bytes.drop 2) } 2 .expectCount) := by
  rw [requestStart, mtake_parsing_go h hn, ofBE16_take_two]
  rfl

theorem requestCount_parsing {f : ModbusFields} {k : Nat} {st : ModbusState} (hn : 6 ≤ bytes.length) :
    requestCount (s.parsing false src f k st) =
      .go (s.parsing false src { f with count := ofBE16 (bytes.drop 4) } 3 .expectCrc) := by
  rw [requestCount, mtake_parsing_go h hn, ofBE16_take_two]
  rfl

/-- `MP.CMD` on a span that has the three fields before the CRC field whole (R193). -/
theorem execMpCmd_fields (hn : 6 ≤ bytes.length) : exec (.mpCmd src) s =
    (modbusCrc 6 3 (s.parsing false src
      { fc := ofBE16 bytes, start := ofBE16 (bytes.drop 2), count := ofBE16 (bytes.drop 4) } 3 .expectCrc)).finish := by
  rw [execMpCmd_span h, requestFunctionCode_parsing h (by omega), andThen_go, requestStart_parsing h (by omega),
    andThen_go, requestCount_parsing h hn, andThen_go]

/-- `MP.CMD` on a span that ends before its CRC field does, by the number of whole entries (R193, R222). -/
theorem execMpCmd_short :
    (bytes.length < 2 → exec (.mpCmd src) s =
      (raise .truncatedInput 0 0 (s.parsing false src {} 0 .expectFunctionCode)).finish) ∧
    (2 ≤ bytes.length → bytes.length < 4 → exec (.mpCmd src) s =
      (raise .truncatedInput 2 1 (s.parsing false src { fc := ofBE16 bytes } 1 .expectStart)).finish) ∧
    (4 ≤ bytes.length → bytes.length < 6 → exec (.mpCmd src) s =
      (raise .truncatedInput 4 2 (s.parsing false src
        { fc := ofBE16 bytes, start := ofBE16 (bytes.drop 2) } 2 .expectCount)).finish) ∧
    (6 ≤ bytes.length → bytes.length < 8 → exec (.mpCmd src) s =
      (raise .truncatedInput 6 3 (s.parsing false src { fc := ofBE16 bytes, start := ofBE16 (bytes.drop 2)
                                                        count := ofBE16 (bytes.drop 4) } 3 .expectCrc)).finish) := by
  refine ⟨fun hs => ?_, fun hn hs => ?_, fun hn hs => ?_, fun hn hs => ?_⟩
  · rw [execMpCmd_span h, requestFunctionCode, mtake_parsing_short h hs]
    rfl
  · rw [execMpCmd_span h, requestFunctionCode_parsing h hn, andThen_go, requestStart, mtake_parsing_short h hs]
    rfl
  · rw [execMpCmd_span h, requestFunctionCode_parsing h (by omega), andThen_go, requestStart_parsing h hn,
      andThen_go, requestCount, mtake_parsing_short h hs]
    rfl
  · rw [execMpCmd_fields h hn, modbusCrc_short (h.short hs)]

end

/-- Settles O29: the four fields lie where R193 reads them, and what follows them is the trailing span. -/
theorem mpCmdExtractsTheRequest : Obligations.MpCmdExtractsTheRequest := by
  intro s src fc start count crc trailing h
  have hfields := execMpCmd_fields h (by simp; omega)
  have hfc : ofBE16 (be16 fc ++ be16 start ++ be16 count ++ le16 crc ++ trailing) = fc := append_bytes16 fc
  have hstart : ofBE16 ((be16 fc ++ be16 start ++ be16 count ++ le16 crc ++ trailing).drop 2) = start :=
    append_bytes16 start
  have hcount : ofBE16 ((be16 fc ++ be16 start ++ be16 count ++ le16 crc ++ trailing).drop 4) = count :=
    append_bytes16 count
  rw [hfc, hstart, hcount] at hfields
  exact hfields.trans (modbusCrc_parsing h false _ 3 .expectCrc (pos := 6) rfl 3)

/-- Settles O30: the number of whole entries is half the length of the span. -/
theorem mpCmdTruncated : Obligations.MpCmdTruncated := by
  intro s src bytes h hlen
  obtain ⟨hcode, hstart, hcount, hcrc⟩ := execMpCmd_short h
  generalize hk : bytes.length / 2 = k
  obtain rfl | rfl | rfl | rfl : k = 0 ∨ k = 1 ∨ k = 2 ∨ k = 3 := by omega
  · exact hcode (by omega)
  · exact hstart (by omega) (by omega)
  · exact hcount (by omega) (by omega)
  · exact hcrc (by omega) (by omega)

/-! ## Responses (R194 to R202) -/

section
variable {s : State} {src : Byte} {bytes : List Byte} (h : s.holdsSpan src bytes)
include h

theorem execMpRsp_span : exec (.mpRsp src) s =
    (responseFunctionCode (s.parsing true src {} 0 .expectFunctionCode)).finish := by
  obtain ⟨hsrc, -⟩ := h
  rw [execMpRsp_eq hsrc, modbusOpened_eq_parsing]

theorem functionCodeField_parsing {f : ModbusFields} {k : Nat} {st : ModbusState} (hn : 2 ≤ bytes.length) :
    (s.parsing true src f k st).functionCodeField = ofBE16 bytes :=
  (congrArg ofBE16 (h.readRange_eq 0 2 hn)).trans (ofBE16_take_two bytes)

theorem codeRead_parsing {f : ModbusFields} {k : Nat} {st : ModbusState} (hn : 2 ≤ bytes.length) (st' : ModbusState) :
    (s.parsing true src f k st).codeRead st' = s.parsing true src { f with fc := ofBE16 bytes } 1 st' := by
  rw [State.codeRead, functionCodeField_parsing h hn]
  rfl

theorem lengthRead_parsing {f : ModbusFields} {k : Nat} {st : ModbusState} (hn : 3 ≤ bytes.length)
    (st' : ModbusState) :
    (s.parsing true src f k st).lengthRead st' = s.parsing true src { f with len := byteAt bytes 2 } 2 st' := by
  rw [← h.read_eq hn]
  rfl

/-- A function code other than that of a read leads to the CRC field (R197). -/
theorem execMpRsp_ack (hn : 2 ≤ bytes.length) (hfc : ofBE16 bytes ≠ fcRead) : exec (.mpRsp src) s =
    (modbusCrc 2 1 (s.parsing true src { fc := ofBE16 bytes } 1 .expectCrc)).finish := by
  obtain ⟨hspan, hin⟩ := h.fits hn
  rw [execMpRsp_span h, responseFunctionCode_other hspan hin, codeRead_parsing h hn]
  rwa [functionCodeField_parsing h hn]

/-- The function code of a read leads to the length byte (R197). -/
theorem execMpRsp_read (hn : 2 ≤ bytes.length) (hfc : ofBE16 bytes = fcRead) : exec (.mpRsp src) s =
    (responseLength (s.parsing true src { fc := fcRead } 1 .expectLength)).finish := by
  obtain ⟨hspan, hin⟩ := h.fits hn
  rw [execMpRsp_span h, responseFunctionCode_read hspan hin, codeRead_parsing h hn, hfc]
  rw [functionCodeField_parsing h hn, hfc]

/-- The length byte 0 leads to the CRC field (R198). -/
theorem execMpRsp_emptyRead (hn : 3 ≤ bytes.length) (hfc : ofBE16 bytes = fcRead) (hl : byteAt bytes 2 = 0) :
    exec (.mpRsp src) s = (modbusCrc 3 2 (s.parsing true src { fc := fcRead } 2 .expectCrc)).finish := by
  obtain ⟨hspan, hin⟩ := h.fits hn
  rw [execMpRsp_read h (by omega) hfc, responseLength_empty hspan hin ((h.read_eq hn).trans hl),
    lengthRead_parsing h hn, hl]

/-- A length byte above 0 leads to the table (R198). -/
theorem execMpRsp_table (hn : 3 ≤ bytes.length) (hfc : ofBE16 bytes = fcRead) (hl : byteAt bytes 2 ≠ 0) :
    exec (.mpRsp src) s =
      (responsePayload (s.parsing true src { fc := fcRead, len := byteAt bytes 2 } 2 .expectPayload)).finish := by
  obtain ⟨hspan, hin⟩ := h.fits hn
  rw [execMpRsp_read h (by omega) hfc, responseLength_table hspan hin ((h.read_eq hn).symm ▸ hl),
    lengthRead_parsing h hn]

end

/-- Settles O33: the string before the CRC field is the function code. -/
theorem mpRspParsesAnAcknowledgement : Obligations.MpRspParsesAnAcknowledgement := by
  intro s src fc crc trailing hack h
  have hfc : ofBE16 (be16 fc ++ le16 crc ++ trailing) = fc := append_bytes16 fc
  have hexec := execMpRsp_ack h (by simp) (hfc.symm ▸ hack)
  rw [hfc] at hexec
  exact hexec.trans (modbusCrc_parsing h true _ 1 .expectCrc (pos := 2) rfl 1)

/-- Settles O34: the string before the CRC field is the function code and the length byte. -/
theorem mpRspParsesAnEmptyRead : Obligations.MpRspParsesAnEmptyRead := by
  intro s src crc trailing h
  have hexec := execMpRsp_emptyRead h (by simp) (ofBE16_readCode _) rfl
  exact hexec.trans (modbusCrc_parsing h true _ 2 .expectCrc (pos := 3) rfl 2)

/-- Settles O36: each span raises at the first entry that does not fit, in the state that the entries before it left. -/
theorem mpRspShortSpansRaise : Obligations.MpRspShortSpansRaise := by
  intro s src bytes h stops
  refine ⟨fun hs => ?noCode, fun hb => ?noLength, fun hn hs hfc => ?noAckCrc, fun hb hs => ?noEmptyCrc⟩
  case noCode =>
    show exec (.mpRsp src) s = _
    rw [execMpRsp_span h, responseFunctionCode_short (h.short hs)]
    rfl
  case noLength =>
    subst hb
    show exec (.mpRsp src) s = _
    rw [execMpRsp_read h (by decide) rfl, responseLength_short (h.short (by decide))]
    rfl
  case noAckCrc =>
    show exec (.mpRsp src) s = _
    rw [execMpRsp_ack h hn hfc, modbusCrc_short (h.short hs)]
    rfl
  case noEmptyCrc =>
    obtain ⟨rest, rfl⟩ : ∃ rest, bytes = [0x01, 0x03, 0x00] ++ rest :=
      ⟨bytes.drop 3, by rw [← hb, List.take_append_drop]⟩
    show exec (.mpRsp src) s = _
    rw [execMpRsp_emptyRead h (by simp) (ofBE16_readCode _) rfl, modbusCrc_short (h.short hs)]
    rfl

/-! ## The register table (R199) -/

theorem length_tableSpan (len : Byte) (table : List Half) (rest : List Byte) :
    ([0x01, 0x03, len] ++ tableBytes table ++ rest).length = 3 + 2 * table.length + rest.length := by
  simp only [List.length_append, length_tableBytes, List.length_cons, List.length_nil]

section
variable {s : State} {src len : Byte} {table : List Half} {rest : List Byte}
variable (h : s.holdsSpan src ([0x01, 0x03, len] ++ tableBytes table ++ rest))
include h

/-- The registers of the span, read one after the other, are the table (R199). -/
theorem tableRead_parsing (fc : Half) (st : ModbusState) :
    (s.parsing true src { fc := fc, len := len } 2 st).tableRead table.length 0 =
      s.parsing true src { fc := fc, len := len, table := table } (2 + table.length) st := by
  have hbytes : Mem.readRange s.ibuf ((s.spanBase src).toNat + 3) (2 * table.length) = tableBytes table :=
    (h.readRange_eq _ _ (by rw [length_tableSpan]; omega)).trans (List.take_left' (length_tableBytes table))
  have hreg : Mem.writeRange [] 0 (tableOf table.length
      (Mem.readRange s.ibuf ((s.spanBase src).toNat + (3 + 2 * 0)) (2 * table.length))) = Mem.writeRange [] 0 table :=
    congrArg (Mem.writeRange [] 0) ((congrArg (tableOf table.length) hbytes).trans (tableOf_tableBytes table))
  have hnreg : (if table.length = 0 then 0 else BitVec.ofNat 8 (0 + table.length)) = BitVec.ofNat 8 table.length := by
    split <;> simp_all
  have hnent : (if table.length = 0 then 2 else BitVec.ofNat 8 (2 + 0 + table.length)) =
      BitVec.ofNat 8 (2 + table.length) := by
    split <;> simp_all
  rw [State.parsing, State.parsing, ← hreg, ← hnreg, ← hnent]
  rfl

theorem tableDone_parsing (hc : table.length = s.cfg.catalogRegs) (fc : Half) (st : ModbusState) :
    (s.parsing true src { fc := fc, len := len } 2 st).tableDone =
      s.parsing true src { fc := fc, len := len, table := table } (2 + table.length) .expectCrc := by
  have htable := tableRead_parsing h fc st
  rw [hc] at htable ⊢
  exact congrArg (fun w : State => { w with mState := ModbusState.expectCrc.code }) htable

variable (hl : len ≠ 0)
include hl

/-- A table that is there whole leads to the CRC field (R199). -/
theorem execMpRsp_tableWhole (hc : table.length = s.cfg.catalogRegs) : exec (.mpRsp src) s =
    (modbusCrc (3 + 2 * s.cfg.catalogRegs) (s.cfg.catalogRegs + 2) (s.parsing true src
      { fc := fcRead, len := len, table := table } (2 + table.length) .expectCrc)).finish := by
  obtain ⟨hspan, hin⟩ := h.fits (n := 3 + 2 * s.cfg.catalogRegs) (by rw [length_tableSpan]; omega)
  rw [execMpRsp_table h (by simp) (ofBE16_readCode _) hl, ← tableDone_parsing h hc]
  exact congrArg Run.finish (responsePayload_go (s := s.parsing true src _ 2 .expectPayload) hspan hin)

/-- A table that ends early raises at the first register that is not there whole (R199, R222). -/
theorem execMpRsp_tableShort (hc : table.length < s.cfg.catalogRegs) (hr : rest.length < 2) : exec (.mpRsp src) s =
    (raise .truncatedInput (3 + 2 * table.length) (2 + table.length) (s.parsing true src
      { fc := fcRead, len := len, table := table } (2 + table.length) .expectPayload)).finish := by
  have hlen := length_tableSpan len table rest
  obtain ⟨hspan, hin⟩ := h.fits (n := 3 + 2 * table.length) (by omega)
  rw [execMpRsp_table h (by simp) (ofBE16_readCode _) hl]
  refine (congrArg Run.finish (responsePayload_short (s := s.parsing true src _ 2 .expectPayload) hc hspan
    (h.short (by omega)) hin)).trans ?_
  rw [← tableRead_parsing h]
  rfl

end

/-- `M_REG` holds the registers of the table and 0 above them (R199). -/
theorem read_table (table : List Half) :
    (∀ (i : Nat) (h : i < table.length), Mem.read (Mem.writeRange [] 0 table) i = table[i]) ∧
    ∀ i, table.length ≤ i → Mem.read (Mem.writeRange [] 0 table) i = 0 :=
  ⟨fun _ h => Mem.read_writeRange_empty table h,
    fun i h => Mem.read_writeRange_other [] 0 table i (.inr ((Nat.zero_add _).trans_le h))⟩

/-- Settles O35: the string before the CRC field is the function code, the length byte and the table. -/
theorem mpRspExtractsTheRegisterTable : Obligations.MpRspExtractsTheRegisterTable := by
  intro s src len table crc trailing hl _ _ hc h check c
  obtain ⟨hread, habove⟩ := read_table table
  have hpos : ([0x01, 0x03, len] ++ tableBytes table).length = 3 + 2 * c := by
    rw [← List.append_nil (_ ++ _), length_tableSpan, hc]
    rfl
  have hspan := h
  rw [List.append_assoc] at hspan
  have hexec := (execMpRsp_tableWhole hspan hl hc).trans (modbusCrc_parsing h true _ _ .expectCrc hpos _)
  refine ⟨_, hexec, hread, fun i hi => habove i (hc.trans_le hi), ?_⟩
  rw [show 5 + 2 * c = 3 + 2 * c + 2 by omega, show BitVec.ofNat 8 c = BitVec.ofNat 8 table.length by rw [hc]]
  rfl

/-- Settles O37: the first entry that does not fit is a register, or the CRC field if the table is whole. -/
theorem mpRspTruncatedTableKeepsItsRegisters : Obligations.MpRspTruncatedTableKeepsItsRegisters := by
  intro s src len table rest hl _ hmax hr h i
  obtain ⟨hread, habove⟩ := read_table table
  rcases Nat.lt_or_eq_of_le hmax with hc | hc
  · refine ⟨_, execMpRsp_tableShort h hl hc hr, hread, habove, ?_⟩
    rw [if_neg (Nat.ne_of_lt hc)]
    rfl
  · have hexec := execMpRsp_tableWhole h hl hc
    rw [modbusCrc_short (h.short (by rw [length_tableSpan]; omega)), ← hc, Nat.add_comm table.length 2] at hexec
    refine ⟨_, hexec, hread, habove, ?_⟩
    rw [if_pos hc]
    rfl

/-! ## What a completed parse promises (R204) -/

/-- `pos` and `ent` are the span offset and the entry of the CRC field in the shape that the function code and the length
byte of `w` select, with `c` registers in a table, and `w` has counted the registers of that shape (R197 to R199). -/
structure ResponseShape (c : Nat) (w : State) (pos ent : Nat) : Prop where
  ack : w.mFc ≠ fcRead → pos = 2 ∧ ent = 1 ∧ w.mNreg = 0 ∧ w.mLen = 0
  emptyRead : w.mFc = fcRead → w.mLen = 0 → pos = 3 ∧ ent = 2 ∧ w.mNreg = 0
  table : w.mFc = fcRead → w.mLen ≠ 0 → pos = 3 + 2 * c ∧ ent = c + 2 ∧ w.mNreg.toNat = c

/-- The promises of a response parse that reached its end (R204). -/
structure ResponsePromises (c : Nat) (t : State) : Prop where
  mState : t.mState = 7
  trailing : t.mToff.toNat + t.mTlen.toNat = t.mSlen.toNat
  crc : t.crc = crc16 (Mem.readRange t.ibuf t.mBase.toNat (t.mToff.toNat - 2))
  crcBad : t.flag .crcBad = true ↔ t.crc ≠ t.mCrc
  ack : t.mFc ≠ 0x0103 → t.mNent = 2 ∧ t.mNreg = 0 ∧ t.mLen = 0 ∧ t.mToff = 4 ∧ 4 ≤ t.mSlen.toNat
  emptyRead : t.mFc = 0x0103 → t.mLen = 0 → t.mNent = 3 ∧ t.mNreg = 0 ∧ t.mToff = 5
  table : t.mFc = 0x0103 → t.mLen ≠ 0 → t.mNreg.toNat = c ∧ t.mNent.toNat = c + 3 ∧ t.mToff.toNat = 5 + 2 * c

/-- The end of a parse keeps the promises of the shape whose CRC field it has read. -/
theorem modbusFinished_promises {c : Nat} {w : State} {pos ent : Nat} (hc : c ≤ 127) (h : ResponseShape c w pos ent)
    (hpos : pos + 2 ≤ w.mSlen.toNat) : ResponsePromises c (w.modbusFinished pos ent) := by
  have hslen := w.mSlen.isLt
  have htoff : (w.modbusFinished pos ent).mToff.toNat = pos + 2 := by
    rw [modbusFinished_mToff, BitVec.toNat_ofNat, Nat.mod_eq_of_lt (by omega)]
  have htlen : (w.modbusFinished pos ent).mTlen.toNat = w.mSlen.toNat - (pos + 2) := by
    rw [modbusFinished_mTlen, BitVec.toNat_ofNat, Nat.mod_eq_of_lt (by omega)]
  exact
    { mState := modbusFinished_mState w pos ent
      trailing := by rw [htoff, htlen, modbusFinished_mSlen]; omega
      crc := by rw [htoff, Nat.add_sub_cancel]; rfl
      crcBad := by simp
      ack := fun hfc => by
        obtain ⟨rfl, rfl, hnreg, hlen⟩ := h.ack hfc
        exact ⟨rfl, hnreg, hlen, rfl, hpos⟩
      emptyRead := fun hfc hlen => by
        obtain ⟨rfl, rfl, hnreg⟩ := h.emptyRead hfc hlen
        exact ⟨rfl, hnreg, rfl⟩
      table := fun hfc hlen => by
        obtain ⟨rfl, rfl, hnreg⟩ := h.table hfc hlen
        refine ⟨hnreg, ?_, by rw [htoff]; omega⟩
        rw [modbusFinished_mNent, BitVec.toNat_ofNat, Nat.mod_eq_of_lt (by omega)] }

/-- If the command completed (R161), the parse keeps its promises. -/
def State.PromisesIfCompleted (c : Nat) (t : State) : Prop :=
  t.outcome = some .ok ∨ t.outcome = some .okFlagged → ResponsePromises c t

/-- A command that raises does not complete (R15). -/
theorem raised_promises (c : Nat) (s : State) (e : ErrorName) (pos ent : Nat) :
    (s.reported e pos ent (.error e)).PromisesIfCompleted c := by
  rintro (h | h) <;> cases h

section
variable {c : Nat} {s : State}

/-- A parse that completes has read its CRC field whole (R200). -/
theorem modbusCrc_promises {pos ent : Nat} (hc : c ≤ 127) (h : ResponseShape c s pos ent) :
    (modbusCrc pos ent s).Ensures (ResponsePromises c) (State.PromisesIfCompleted c) True := by
  rcases Nat.lt_or_ge s.mSlen.toNat (pos + 2) with hshort | hspan
  · rw [modbusCrc_short hshort]
    exact raise_ensures (raised_promises _ _ _ _ _)
  rcases Nat.lt_or_ge s.ilen.toNat (s.mBase.toNat + pos + 2) with hout | hin
  · rw [modbusCrc, mtake, if_neg (Nat.not_lt.2 hspan), memRead_of_gt (b := .ibuf) hout]
    trivial
  rw [modbusCrc_whole hspan hin]
  have hp := modbusFinished_promises hc h hspan
  split
  · exact hp
  · exact flagMismatch_ensures fun _ => { hp with }

/-- The state after `n` registers: they are counted, and what selects the shape is kept (R199). -/
structure RegistersCounted (s : State) (n : Nat) (t : State) : Prop where
  mNreg : t.mNreg = BitVec.ofNat 8 n
  mFc : t.mFc = s.mFc
  mLen : t.mLen = s.mLen
  cfg : t.cfg = s.cfg

theorem responseTable_counts {w : State} {left i : Nat} (h : RegistersCounted s i w) :
    (responseTable left i w).Ensures (RegistersCounted s (i + left)) (State.PromisesIfCompleted c) True := by
  induction left generalizing i w with
  | zero => exact h
  | succ left ih =>
    refine mtake_ensures (fun _ => trivial) (fun _ => raised_promises _ _ _ _ _) fun _ _ => ?_
    rw [show i + (left + 1) = i + 1 + left by omega]
    exact ih { h with mNreg := rfl }

theorem responsePayload_promises (hc : c ≤ 127) (hs : s.cfg.catalogRegs = c) (hfc : s.mFc = fcRead) (hlen : s.mLen ≠ 0)
    (hnreg : s.mNreg = 0) :
    (responsePayload s).Ensures (ResponsePromises c) (State.PromisesIfCompleted c) True := by
  refine andThen_ensures (responseTable_counts (i := 0) ⟨hnreg, rfl, rfl, rfl⟩) fun t ht => ?_
  obtain ⟨hcount, htfc, htlen, hcfg⟩ := ht
  rw [hs, Nat.zero_add] at hcount
  rw [hcfg, hs]
  refine modbusCrc_promises hc ⟨?_, ?_, fun _ _ => ?_⟩
  · exact fun h => absurd (htfc.trans hfc) h
  · exact fun _ h => absurd (htlen.symm.trans h) hlen
  · refine ⟨rfl, rfl, ?_⟩
    rw [hcount, BitVec.toNat_ofNat, Nat.mod_eq_of_lt (by omega)]

theorem responseLength_promises (hc : c ≤ 127) (hs : s.cfg.catalogRegs = c) (hfc : s.mFc = fcRead)
    (hnreg : s.mNreg = 0) :
    (responseLength s).Ensures (ResponsePromises c) (State.PromisesIfCompleted c) True := by
  refine mtake_ensures (fun _ => trivial) (fun _ => raised_promises _ _ _ _ _) fun _ _ => ?_
  dsimp only
  split
  case isTrue hlen => exact responsePayload_promises hc hs hfc hlen hnreg
  case isFalse hlen =>
    exact modbusCrc_promises hc
      { ack := fun h => absurd hfc h
        emptyRead := fun _ _ => ⟨rfl, rfl, hnreg⟩
        table := fun _ h => absurd h hlen }

theorem responseFunctionCode_promises (hc : c ≤ 127) (hs : s.cfg.catalogRegs = c) (hlen : s.mLen = 0)
    (hnreg : s.mNreg = 0) :
    (responseFunctionCode s).Ensures (ResponsePromises c) (State.PromisesIfCompleted c) True := by
  refine mtake_ensures (fun _ => trivial) (fun _ => raised_promises _ _ _ _ _) fun _ _ => ?_
  dsimp only
  split
  case isTrue hfc => exact responseLength_promises hc hs hfc hnreg
  case isFalse hfc =>
    exact modbusCrc_promises hc
      { ack := fun _ => ⟨rfl, rfl, hnreg, hlen⟩
        emptyRead := fun h => absurd h hfc
        table := fun h => absurd h hfc }

/-- `MP.RSP` on whatever selector and span (R191, R204). -/
theorem execMpRsp_promises {t : State} {src : Byte} (hc : s.cfg.catalogRegs ≤ 127) (ht : exec (.mpRsp src) s = .next t) :
    t.PromisesIfCompleted s.cfg.catalogRegs := by
  have hparse : ((modbusStart 0x32 src true s).andThen responseFunctionCode).Ensures
      (ResponsePromises s.cfg.catalogRegs) (State.PromisesIfCompleted s.cfg.catalogRegs) True := by
    rcases modbusStart_cases s 0x32 src true with ⟨-, e⟩ | ⟨-, -, e⟩ | ⟨-, -, e⟩ <;> rw [e]
    · exact responseFunctionCode_promises (s := s.modbusOpened true src) hc rfl rfl rfl
    · exact raised_promises _ _ _ _ _
    · exact raised_promises _ _ _ _ _
  exact hparse.of_finish (fun _ hp _ => { hp with }) ht

end

/-- Settles O38: a run that completed is one that reached its CRC field. -/
theorem validResponseParsePromises : Obligations.ValidResponseParsePromises := by
  intro s t src hc ht hdone _
  obtain ⟨hstate, htrailing, hcrc, hbad, hack, hempty, htable⟩ := execMpRsp_promises hc ht hdone
  exact ⟨hstate, htrailing, hcrc, hbad, hack, hempty, htable⟩

end Sys2Proof.Machine

/-! What 60_exceptions.md says of a wrong delimiter (R227) and of a command out of sequence (R229). -/

namespace Sys2Proof.Machine

/-! ## A frame with another end byte (R180, R227) -/

section
variable {s : State} {f : FrameHeader} {payload trailing : List Byte} {chk fin : Byte}
variable (hc : s.cfg.dataLen = 15) (hd : f.data.length = 15) (hn : f.len.toNat = 15 + payload.length)
variable (hin : s.holdsInput (f.input (payload ++ chk :: fin :: trailing)))

include hc hd hin in
/-- The end byte's place in the input (R170). -/
theorem read_endByte : s.cfg.payloadOffset + 1 + payload.length + 1 ≤ s.ilen.toNat ∧
    Mem.read s.ibuf (s.cfg.payloadOffset + 1 + payload.length) = fin := by
  have hoff : s.cfg.payloadOffset = 26 := payloadOffset_eq hc
  have hlen := length_input hd (payload ++ chk :: fin :: trailing)
  rw [List.length_append, List.length_cons, List.length_cons] at hlen
  have hbyte : byteAt (payload ++ chk :: fin :: trailing) (payload.length + 1) = fin := by
    simpa using byteAt_append_cons (payload ++ [chk]) trailing fin
  refine ⟨by rw [hin.1]; omega, ?_⟩
  rw [hin.read_eq (by omega), hoff, Nat.add_assoc, Nat.add_comm 1, byteAt_input hd, hbyte]

include hc hd hn hin in
/-- Another end byte ends the parse with the eight entries before it decoded (R180, R227). -/
theorem execEpRun_badEnd (hfin : fin ≠ endDelim) :
    exec .epRun s = .next (State.reported
      { s.decoded f 8 (if sum8 (f.bytes ++ payload) = chk then 0x02 else 0x06) 26 (BitVec.ofNat 16 payload.length) chk
          (sum8 (f.bytes ++ payload)) with eEnd := fin }
      .badDelimiter (27 + payload.length) 8 (.error .badDelimiter)) := by
  obtain ⟨hwhole, rfl⟩ := read_endByte hc hd hin
  have hoff : s.cfg.payloadOffset + 1 = 27 := congrArg (· + 1) (payloadOffset_eq hc)
  rw [execEpRun_of_checksum hc hd hn hin, envelopeEnd_bad (by rwa [decoded_payloadLen hc hn])
    (by rwa [decoded_payloadLen hc hn]), decoded_payloadLen hc hn, ← hoff]
  rfl

end

/-- Settles O24: the start byte ends the parse with nothing decoded, the end byte with eight entries decoded. -/
theorem wrongDelimitersAreFatal : Obligations.WrongDelimitersAreFatal := by
  refine ⟨fun s hpos hstart => ?badStart,
    fun s len ctrl cnt ser data payload trailing chk fin hc hd hn hfin hin => ?badEnd⟩
  case badStart =>
    refine ⟨_, execEpRun_badStart hpos hstart, fun _ => rfl, ?_⟩
    rw [← status_envelopeClear]
    rfl
  case badEnd =>
    have hin' : s.holdsInput (FrameHeader.input ⟨len, ctrl, cnt, ser, data⟩ (payload ++ chk :: fin :: trailing)) := by
      simpa only [FrameHeader.input, FrameHeader.bytes, List.append_assoc, List.cons_append, List.nil_append] using hin
    obtain ⟨hdata, hzero⟩ := read_decoded_data hd
    exact ⟨_, execEpRun_badEnd hc hd hn hin' hfin, hdata, hzero, rfl⟩

/-! ## Commands out of sequence (R229) -/

/-- A parse of the payload span is refused where there is none, before it clears anything (R191, R229). -/
theorem modbusStart_noPayload {s : State} (h : s.flag .eHaspl = false) (op : Byte) (isResponse : Bool) :
    modbusStart op 0 isResponse s = raise .sequenceError 0 0 s := by
  rw [modbusStart, selectSpan_noPayload h]
  rfl

/-- Settles O31: `ENV.BUILD` is O27's second clause, the two parsers fail at their start. -/
theorem sequenceErrorsChangeOnlyTheRecord : Obligations.SequenceErrorsChangeOnlyTheRecord := by
  obtain ⟨-, hbuild, -⟩ := envBuildAssemblesTheFrame
  refine fun s => ⟨fun hpb a => hbuild s a hpb, fun hspan => ⟨?command, ?response⟩⟩
  case command =>
    show execMpCmd 0 s = _
    rw [execMpCmd, modbusStart_noPayload hspan]
    rfl
  case response =>
    show execMpRsp 0 s = _
    rw [execMpRsp, modbusStart_noPayload hspan]
    rfl

end Sys2Proof.Machine

namespace Sys2Proof.Machine

/-! ## The reset state (R261) -/

/-- Settles O1: each register is the row of the table it was given, no flag is set, and a memory with nothing listed reads
0 everywhere. -/
theorem resetStateHoldsTheResetTable : Obligations.ResetStateHoldsTheResetTable := by
  refine ⟨rfl, rfl, rfl, rfl, ?flags, rfl, rfl, rfl, rfl, rfl, rfl, rfl, rfl,
    -- the `E_*` result registers
    rfl, rfl, rfl, rfl, rfl, rfl, rfl, rfl, rfl, rfl, rfl, rfl,
    -- the `M_*` result registers, then the read latch
    rfl, rfl, rfl, rfl, rfl, rfl, rfl, rfl, rfl, rfl, rfl, rfl, ?pbuf, ?eData, ?mReg⟩
  case flags => exact flag_reset Config.recommended
  case pbuf => exact Mem.read_nil
  case eData => exact Mem.read_nil
  case mReg => exact Mem.read_nil

end Sys2Proof.Machine
